-- ==== Sys2Proof/Word.lean ====
section
/-! DEFINITION. The widths of the machine: bytes, halfwords, words (20_memory.md R70), the 56-bit accumulator
(10_state.md R43), and the 4-bit fields that name a general or a control register (30_encoding.md R110). -/

namespace Sys2Proof

/-- A byte of memory. -/
abbrev Byte := BitVec 8

/-- A halfword: a 16-bit instruction, or a 2-byte datum. -/
abbrev Half := BitVec 16

/-- A word: a register, an address, a 32-bit instruction. -/
abbrev Word := BitVec 32

/-- The accumulator's 56 bits (10_state.md R43). -/
abbrev Acc := BitVec 56

/-- The number of a general register as an instruction encodes it (30_encoding.md R110). -/
abbrev Reg := BitVec 4

/-- The number of a control register as an instruction encodes it (10_state.md R24). -/
abbrev CReg := BitVec 4

end Sys2Proof
end

