-- ==== Sys2Proof/Config.lean ====
section
/-! DEFINITION. What an implementation fixes (the EIT vectors and the offsets saved in BPC), the words in which a platform says
what lies at its addresses, and the values the spec leaves to a draw. A drawn value is an opaque constant without a body,
applied to the number of the draw and to the operands it may depend on, so that nothing can be proved about which value it is
(93_implementation_defined.md U2, U6, U7, U8, U9, U10; log entries 32 and 39). -/

namespace Sys2Proof

/-- What lies at an address (20_memory.md R78, R80). A ROM is a device: one whose reads answer its contents and whose writes
do nothing. -/
inductive Backing where
  /-- Plain memory: a read gives what was written last. -/
  | ram
  /-- A device, by its number: the read and write functions of R80 are its own (log entry 39). -/
  | device (id : Nat)
  /-- Nothing: the platform does not back the address (decision D29). -/
  | absent
  deriving DecidableEq, Repr

/-- A range of addresses that one thing backs. -/
structure Region where
  /-- The lowest address. -/
  base : Nat
  /-- How many bytes it holds. -/
  size : Nat
  /-- What backs it. -/
  backing : Backing
  deriving DecidableEq, Repr

/-- MemMap (20_memory.md R80): the first region that holds an address decides; an address that none holds is absent. -/
abbrev MemMap := List Region

/-- One data access of the CPU that reaches a device (20_memory.md R78). -/
structure DeviceAccess where
  /-- The address of the access. -/
  addr : Nat
  /-- How many bytes it moves: 1, 2 or 4. -/
  width : Nat
  /-- The value of a store; none for a load. -/
  stored : Option Word
  deriving DecidableEq, Repr

end Sys2Proof

namespace Sys2Proof.Config

/-- Where execution starts after reset (60_exceptions.md R408, 70_reset_and_hazards.md R450). -/
def vecRI : Word := 0x00000000

/-- The entry of an address exception (60_exceptions.md R401, R408; PRESUMED, log entry 10). -/
def vecAE : Word := 0x00000030

/-- The entry of TRAP 0; TRAP n enters 4 * n further on (60_exceptions.md R401, R408; PRESUMED, log entry 10). -/
def vecTrapBase : Word := 0x00000040

/-- The entry of the external interrupt (60_exceptions.md R401, R408; PRESUMED, log entry 10). -/
def vecEI : Word := 0x00000080

/-- The entry of a floating-point exception (60_exceptions.md R401, R408; PRESUMED, log entry 10). -/
def vecFPE : Word := 0x00000090

/-- BPC holds the faulting instruction's own address after an address exception
(60_exceptions.md R407; PRESUMED, log entry 12). -/
def bpcAEOffset : Word := 0

/-- BPC holds the next instruction's address after a floating-point exception
(60_exceptions.md R407; PRESUMED, log entry 12). -/
def bpcFPEOffset : Word := 4

/-- Whether UNLOCK checks its address while the LOCK bit is 0 (40_load_store.md R163, decision D25; DESIGN CHOICE, log
entry 19). -/
def unlockAEWhenClear : Bool := true

/-- MUL_ACC: the accumulator after `MUL` on two operands (43_muldiv_shift.md R220, U7; log entry 29). -/
opaque mulAcc : Nat → Word → Word → Acc

/-- DIV_OVF: what DIV leaves in Rdest for 0x80000000 / 0xFFFFFFFF (43_muldiv_shift.md R225, U6; log entry 28). -/
opaque divOverflow : Nat → Word

/-- DIV_OVF: what REM leaves in Rdest for 0x80000000 / 0xFFFFFFFF (43_muldiv_shift.md R225, U6; log entry 28). -/
opaque remOverflow : Nat → Word

/-- RTE_BACKUP: BSM, BIE, BC (bits 2, 1, 0) after RTE, from what they were (45_eit_instructions.md R281, U2; log entry 30). -/
opaque rteBackup : Nat → BitVec 3 → BitVec 3

/-- RTE_BACKUP: BPC after RTE, from what it was (45_eit_instructions.md R281, U2; log entry 30). -/
opaque rteBpc : Nat → Word → Word

/-- FCMP_LT_BITS: value bits 30 to 0 of the result "less", per operand pair (48_float_convert_compare.md R377, U8;
log entry 27). -/
opaque fcmpLess : Nat → Word → Word → BitVec 31

/-- FCMP_UN_BITS: value bits 21 to 0 of the result "comparison invalid" (48_float_convert_compare.md R377, U8; log
entry 27). -/
opaque fcmpUnordered : Nat → Word → Word → BitVec 22

/-- FCMP_GT_BITS: selects the result "greater" out of the set rule R377 allows (48_float_convert_compare.md R377, U8; log
entry 27). -/
opaque fcmpGreater : Nat → Word → Word → Nat

/-- IQ_DEPTH: how many bytes ahead of a storing instruction may already be fetched (20_memory.md R87, U10; log entry 31). -/
opaque iqDepth : Nat

/-- Whether a fetch sees a byte as it was before the `k`-th oldest store still in the queue's window, per draw and
address (20_memory.md R87, U10; log entry 31). -/
opaque queueKeepsOld : Nat → Nat → Nat → Bool

/-- The read function of a device (20_memory.md R80, D29; log entry 39): the byte at an address, for an access of a width, per
draw, device and the accesses made so far, the newest first. Its write function is what a store does to that list. -/
opaque deviceRead : Nat → Nat → List DeviceAccess → Nat → Nat → Byte

/-- What a fetch of one byte out of a device answers, per draw, device, accesses made so far and address (20_memory.md R78,
R80; log entry 39). -/
opaque deviceFetch : Nat → Nat → List DeviceAccess → Nat → Byte

end Sys2Proof.Config
end

