-- ==== Sys2Proof/Machine/State.lean ====
section
/-! DEFINITION. The state of the machine (10_state.md R20 to R49), why a step can stop, and the state after reset
(70_reset_and_hazards.md R450). -/

namespace Sys2Proof.Machine

/-- The six bits of the PSW that exist (10_state.md R25); the other 26 read 0 and discard writes (R30, decision D14). -/
structure Psw where
  /-- BSM: SM as it was when the last EIT was entered. -/
  bsm : Bool
  /-- BIE: IE as it was when the last EIT was entered. -/
  bie : Bool
  /-- BC: C as it was when the last EIT was entered. -/
  bc : Bool
  /-- SM: false when R15 is SPI, true when it is SPU (R27). -/
  sm : Bool
  /-- IE: external interrupts are accepted (R28). -/
  ie : Bool
  /-- C: the condition bit (R29). -/
  c : Bool
  deriving DecidableEq, Repr

/-- The four values of FPSR.RM (10_state.md R41): 00, 01, 10, 11 in this order. -/
inductive RoundMode where
  | nearest
  | zero
  | plusInf
  | minusInf
  deriving DecidableEq, Repr

/-- A set of floating-point exceptions, and the six cause bits of the FPSR that record one (10_state.md R40,
47_float_arith.md R324). -/
structure FpCauses where
  /-- UIPL, unimplemented operation. -/
  ce : Bool
  /-- IXCT, inexact. -/
  cx : Bool
  /-- UDF, underflow. -/
  cu : Bool
  /-- DIV0, zero divide. -/
  cz : Bool
  /-- OVF, overflow. -/
  co : Bool
  /-- IVLD, invalid operation. -/
  cv : Bool
  deriving DecidableEq, Repr

/-- The FPSR (10_state.md R35). FS has no storage: it is computed at every read (R36). -/
structure Fpsr where
  /-- FX, the sticky inexact flag (R37). -/
  fx : Bool
  /-- FU, the sticky underflow flag. -/
  fu : Bool
  /-- FZ, the sticky zero divide flag. -/
  fz : Bool
  /-- FO, the sticky overflow flag. -/
  fo : Bool
  /-- FV, the sticky invalid operation flag. -/
  fv : Bool
  /-- EX enables EIT processing for inexact (R38). -/
  ex : Bool
  /-- EU enables EIT processing for underflow. -/
  eu : Bool
  /-- EZ enables EIT processing for zero divide. -/
  ez : Bool
  /-- EO enables EIT processing for overflow. -/
  eo : Bool
  /-- EV enables EIT processing for invalid operation. -/
  ev : Bool
  /-- DN: a denormalized number is handled as zero (R39). -/
  dn : Bool
  /-- CE, CX, CU, CZ, CO, CV (R40). -/
  cause : FpCauses
  /-- RM (R41). -/
  rm : RoundMode
  deriving DecidableEq, Repr

/-- A byte stored since the last control transfer: what a fetch may still see of the instruction queue
(10_state.md R47, 20_memory.md R87; log entry 31). -/
structure QueuedStore where
  /-- The byte's address. -/
  addr : Nat
  /-- How far ahead of the storing instruction it lies, modulo 2^32. -/
  dist : Nat
  /-- The byte before the store. -/
  old : Byte
  deriving DecidableEq, Repr

/-- Memory: the bytes that differ from what an unlisted address reads as, by rising address. -/
abbrev Memory := List Host.Cell

/-- The whole state of the machine (10_state.md R20). -/
structure State where
  /-- R0 to R14 (R21). R15 has no storage of its own (R22). -/
  gpr : Vector Word 15
  /-- SPI, CR2: R15 while SM = 0 (R22, R32). -/
  spi : Word
  /-- SPU, CR3: R15 while SM = 1 (R22, R33). -/
  spu : Word
  /-- PSW, CR0 (R25); CBR, CR1, is its bit C (R31). -/
  psw : Psw
  /-- BPC, CR6 (R34). -/
  bpc : Word
  /-- FPSR, CR7 (R35). -/
  fpsr : Fpsr
  /-- The accumulator (R43). -/
  acc : Acc
  /-- The address of the instruction to execute (R45). -/
  pc : Word
  /-- The LOCK bit (R46). -/
  lock : Bool
  /-- The memory (20_memory.md R70). -/
  mem : Memory
  /-- MemMap: what the platform has at each address (20_memory.md R80, decision D29). No step changes it. -/
  memMap : MemMap
  /-- The accesses made to devices, the newest first: all that the CPU does to a device (20_memory.md R78, R80). -/
  devLog : List DeviceAccess
  /-- Bytes stored since the last control transfer, the newest first (10_state.md R47, 20_memory.md R87). -/
  queue : List QueuedStore
  /-- ExtInt: the platform requests an external interrupt (60_exceptions.md R420). Only the platform changes it. -/
  extInt : Bool
  /-- The platform raises the reset event (60_exceptions.md R430). Only the platform sets it. -/
  resetReq : Bool
  /-- The model's own: the number of the next draw of a value the spec leaves open (log entry 32). -/
  drawIndex : Nat
  deriving DecidableEq, Repr

/-- The events that enter EIT processing (60_exceptions.md R401, R405). Reset is apart (R430). -/
inductive EitEvent where
  /-- An address exception. -/
  | ae
  /-- A floating-point exception. -/
  | fpe
  /-- TRAP with its number. -/
  | trap (n : BitVec 4)
  /-- The external interrupt. -/
  | ei
  deriving DecidableEq, Repr

/-- Why the machine stops with a fault. -/
inductive Fault where
  /-- Raised by `step` when the PC is odd, which 10_state.md R45 says cannot be: no step from an even PC leaves an odd one.
  Safe: the machine the spec describes has no such state (log entry 33). -/
  | oddProgramCounter
  deriving DecidableEq, Repr

/-- Why the model refuses a step. -/
inductive Refusal where
  /-- An instruction that has no meaning yet. Safe: it stops where the machine goes on. No instruction answers it. -/
  | notModelled (mnemonic : String)
  /-- Raised by `step` on a 16-bit pattern of 30_encoding.md R118, which R131 refuses. Safe: nothing is claimed of it (log
  entry 14). -/
  | unassignedEncoding16
  /-- Raised by `step` on a 32-bit pattern of 30_encoding.md R119, which R131 refuses. Safe: nothing is claimed of it (log
  entry 14). -/
  | unassignedEncoding32
  /-- Raised by `step` on an instruction B with its MSB set that is not NOP, which 30_encoding.md R103 refuses. Safe: nothing
  is claimed of it (log entry 14). -/
  | parallelNotNop
  /-- Raised by MVFC and MVTC on a control register number that names no register, which 10_state.md R24 refuses. Safe:
  nothing is claimed of it (log entry 15). -/
  | noControlRegister (cr : CReg)
  /-- Raised by the loads and stores, LOCK, UNLOCK, BSET, BCLR and by the fetch of `step` on an access to an address that the
  platform does not back, which 20_memory.md R80 (decision D29) refuses. Safe: nothing is claimed of it (log entry 8). -/
  | unbackedAddress (a : Word)
  deriving DecidableEq, Repr

/-- What a step or an instruction answers. -/
abbrev Result := Host.Outcome State Fault Refusal

/-- No exception, no cause bit. -/
abbrev FpCauses.none : FpCauses :=
  { ce := false, cx := false, cu := false, cz := false, co := false, cv := false }

/-- The PSW after reset: SM, IE, C are 0 (10_state.md R25); BSM, BIE, BC are the model's choice (log entry 3). -/
def Psw.reset : Psw :=
  { bsm := false, bie := false, bc := false, sm := false, ie := false, c := false }

/-- The FPSR after reset, H'0000 0100: only DN is 1 (10_state.md R35). -/
def Fpsr.reset : Fpsr :=
  { fx := false, fu := false, fz := false, fo := false, fv := false
    ex := false, eu := false, ez := false, eo := false, ev := false
    dn := true, cause := FpCauses.none, rm := .nearest }

/-- A platform with plain memory at every address: the model's choice for the machine after reset (DESIGN CHOICE, log
entry 8). -/
def MemMap.allRam : MemMap := [{ base := 0, size := 2 ^ 32, backing := .ram }]

/-- The machine right after reset release (70_reset_and_hazards.md R450). What the spec leaves undefined there (R0 to R14, SPI,
SPU, BSM, BIE, BC, BPC, ACC) has the value its log entry names (entries 1 to 5); memory lists nothing (entry 7). What the spec
leaves to the platform (00_scope.md R6) has the model's choice, too: MemMap is RAM everywhere and no device was accessed
(DESIGN CHOICE, entry 8), ExtInt is not requested (DESIGN CHOICE, entry 16) and no reset is requested (DESIGN CHOICE, entry
17). LOCK is 0 by the spec's decision D9 (entry 6); the draws begin at number 0 (DESIGN CHOICE, entry 32). -/
def State.reset : State :=
  { gpr := Vector.replicate 15 0
    spi := 0
    spu := 0
    psw := Psw.reset
    bpc := 0
    fpsr := Fpsr.reset
    acc := 0
    pc := Config.vecRI
    lock := false
    mem := []
    memMap := MemMap.allRam
    devLog := []
    queue := []
    extInt := false
    resetReq := false
    drawIndex := 0 }

end Sys2Proof.Machine
end

