-- ==== Sys2Proof/Syntax.lean ====
section
/-! DEFINITION. The instructions of the M32R-FPU: one constructor for each of the 118 rows of spec/opcode_table.json
(30_encoding.md rules R114 to R117 and R102), operands in the order the assembler syntax writes them (rule R134).
An operand is the raw field of the encoding (rules R110, R111); its extension belongs to the meaning. -/

namespace Sys2Proof

/-- One instruction of the M32R-FPU. -/
inductive Instr where
  /-- `SUBV Rdest,Rsrc` (R203). -/
  | subv (dest : Reg) (src : Reg)
  /-- `ADDV Rdest,Rsrc` (R198). -/
  | addv (dest : Reg) (src : Reg)
  /-- `SUBX Rdest,Rsrc` (R204). -/
  | subx (dest : Reg) (src : Reg)
  /-- `ADDX Rdest,Rsrc` (R200). -/
  | addx (dest : Reg) (src : Reg)
  /-- `SUB Rdest,Rsrc` (R202). -/
  | sub (dest : Reg) (src : Reg)
  /-- `ADD Rdest,Rsrc` (R195). -/
  | add (dest : Reg) (src : Reg)
  /-- `NEG Rdest,Rsrc` (R201). -/
  | neg (dest : Reg) (src : Reg)
  /-- `NOT Rdest,Rsrc` (R207). -/
  | not (dest : Reg) (src : Reg)
  /-- `CMP Rsrc1,Rsrc2` (R191). -/
  | cmp (src1 : Reg) (src2 : Reg)
  /-- `AND Rdest,Rsrc` (R205). -/
  | and (dest : Reg) (src : Reg)
  /-- `CMPU Rsrc1,Rsrc2` (R193). -/
  | cmpu (src1 : Reg) (src2 : Reg)
  /-- `XOR Rdest,Rsrc` (R210). -/
  | xor (dest : Reg) (src : Reg)
  /-- `BTST #bitpos,Rsrc` (R392). -/
  | btst (bitpos : BitVec 3) (src : Reg)
  /-- `OR Rdest,Rsrc` (R208). -/
  | or (dest : Reg) (src : Reg)
  /-- `SRL Rdest,Rsrc` (R234). -/
  | srl (dest : Reg) (src : Reg)
  /-- `MV Rdest,Rsrc` (R183). -/
  | mv (dest : Reg) (src : Reg)
  /-- `SRA Rdest,Rsrc` (R231). -/
  | sra (dest : Reg) (src : Reg)
  /-- `MVFC Rdest,CRsrc` (R184). -/
  | mvfc (dest : Reg) (cr : CReg)
  /-- `SLL Rdest,Rsrc` (R228). -/
  | sll (dest : Reg) (src : Reg)
  /-- `MVTC Rsrc,CRdest` (R185). -/
  | mvtc (src : Reg) (cr : CReg)
  /-- `MUL Rdest,Rsrc` (R220). -/
  | mul (dest : Reg) (src : Reg)
  /-- `JL Rsrc` (R270). -/
  | jl (src : Reg)
  /-- `RTE` (R281). -/
  | rte
  /-- `JMP Rsrc` (R271). -/
  | jmp (src : Reg)
  /-- `TRAP #imm4` (R280). -/
  | trap (imm4 : BitVec 4)
  /-- `STB Rsrc1,@Rsrc2` (R158). -/
  | stb (src1 : Reg) (src2 : Reg)
  /-- `LDB Rdest,@Rsrc` (R145). -/
  | ldb (dest : Reg) (src : Reg)
  /-- `STH Rsrc1,@Rsrc2` (R160). -/
  | sth (src1 : Reg) (src2 : Reg)
  /-- `LDUB Rdest,@Rsrc` (R147). -/
  | ldub (dest : Reg) (src : Reg)
  /-- `STH Rsrc1,@Rsrc2+` (R161). -/
  | sthInc (src1 : Reg) (src2 : Reg)
  /-- `LDH Rdest,@Rsrc` (R149). -/
  | ldh (dest : Reg) (src : Reg)
  /-- `ST Rsrc1,@Rsrc2` (R154). -/
  | st (src1 : Reg) (src2 : Reg)
  /-- `LDUH Rdest,@Rsrc` (R151). -/
  | lduh (dest : Reg) (src : Reg)
  /-- `UNLOCK Rsrc1,@Rsrc2` (R163). -/
  | unlock (src1 : Reg) (src2 : Reg)
  /-- `LD Rdest,@Rsrc` (R142). -/
  | ld (dest : Reg) (src : Reg)
  /-- `ST Rsrc1,@+Rsrc2` (R155). -/
  | stPreInc (src1 : Reg) (src2 : Reg)
  /-- `LOCK Rdest,@Rsrc` (R153). -/
  | lock (dest : Reg) (src : Reg)
  /-- `ST Rsrc1,@-Rsrc2` (R156). -/
  | stPreDec (src1 : Reg) (src2 : Reg)
  /-- `LD Rdest,@Rsrc+` (R143). -/
  | ldInc (dest : Reg) (src : Reg)
  /-- `MULHI Rsrc1,Rsrc2` (R292). -/
  | mulhi (src1 : Reg) (src2 : Reg)
  /-- `MACHI Rsrc1,Rsrc2` (R296). -/
  | machi (src1 : Reg) (src2 : Reg)
  /-- `MULLO Rsrc1,Rsrc2` (R293). -/
  | mullo (src1 : Reg) (src2 : Reg)
  /-- `MACLO Rsrc1,Rsrc2` (R297). -/
  | maclo (src1 : Reg) (src2 : Reg)
  /-- `MULWHI Rsrc1,Rsrc2` (R294). -/
  | mulwhi (src1 : Reg) (src2 : Reg)
  /-- `MACWHI Rsrc1,Rsrc2` (R298). -/
  | macwhi (src1 : Reg) (src2 : Reg)
  /-- `MULWLO Rsrc1,Rsrc2` (R295). -/
  | mulwlo (src1 : Reg) (src2 : Reg)
  /-- `MACWLO Rsrc1,Rsrc2` (R299). -/
  | macwlo (src1 : Reg) (src2 : Reg)
  /-- `ADDI Rdest,#imm8` (R197). -/
  | addi (dest : Reg) (imm8 : BitVec 8)
  /-- `LDI Rdest,#imm8` (R181). -/
  | ldi8 (dest : Reg) (imm8 : BitVec 8)
  /-- `SRLI Rdest,#imm5` (R236). -/
  | srli (dest : Reg) (imm5 : BitVec 5)
  /-- `MVTACHI Rsrc` (R303). -/
  | mvtachi (src : Reg)
  /-- `SRAI Rdest,#imm5` (R233). -/
  | srai (dest : Reg) (imm5 : BitVec 5)
  /-- `MVTACLO Rsrc` (R304). -/
  | mvtaclo (src : Reg)
  /-- `SLLI Rdest,#imm5` (R230). -/
  | slli (dest : Reg) (imm5 : BitVec 5)
  /-- `MVFACHI Rdest` (R300). -/
  | mvfachi (dest : Reg)
  /-- `RACH` (R306). -/
  | rach
  /-- `MVFACLO Rdest` (R301). -/
  | mvfaclo (dest : Reg)
  /-- `RAC` (R305). -/
  | rac
  /-- `MVFACMI Rdest` (R302). -/
  | mvfacmi (dest : Reg)
  /-- `NOP` (R272). -/
  | nop
  /-- `BC pcdisp8` (R254). -/
  | bc8 (pcdisp8 : BitVec 8)
  /-- `SETPSW #imm8` (R394). -/
  | setpsw (imm8 : BitVec 8)
  /-- `BNC pcdisp8` (R264). -/
  | bnc8 (pcdisp8 : BitVec 8)
  /-- `CLRPSW #imm8` (R395). -/
  | clrpsw (imm8 : BitVec 8)
  /-- `BL pcdisp8` (R262). -/
  | bl8 (pcdisp8 : BitVec 8)
  /-- `BRA pcdisp8` (R268). -/
  | bra8 (pcdisp8 : BitVec 8)
  /-- `CMPI Rsrc,#imm16` (R192). -/
  | cmpi (src : Reg) (imm16 : BitVec 16)
  /-- `CMPUI Rsrc,#imm16` (R194). -/
  | cmpui (src : Reg) (imm16 : BitVec 16)
  /-- `ADDV3 Rdest,Rsrc,#imm16` (R199). -/
  | addv3 (dest : Reg) (src : Reg) (imm16 : BitVec 16)
  /-- `ADD3 Rdest,Rsrc,#imm16` (R196). -/
  | add3 (dest : Reg) (src : Reg) (imm16 : BitVec 16)
  /-- `AND3 Rdest,Rsrc,#imm16` (R206). -/
  | and3 (dest : Reg) (src : Reg) (imm16 : BitVec 16)
  /-- `XOR3 Rdest,Rsrc,#imm16` (R211). -/
  | xor3 (dest : Reg) (src : Reg) (imm16 : BitVec 16)
  /-- `OR3 Rdest,Rsrc,#imm16` (R209). -/
  | or3 (dest : Reg) (src : Reg) (imm16 : BitVec 16)
  /-- `DIV Rdest,Rsrc` (R221). -/
  | div (dest : Reg) (src : Reg)
  /-- `DIVU Rdest,Rsrc` (R222). -/
  | divu (dest : Reg) (src : Reg)
  /-- `REM Rdest,Rsrc` (R223). -/
  | rem (dest : Reg) (src : Reg)
  /-- `REMU Rdest,Rsrc` (R224). -/
  | remu (dest : Reg) (src : Reg)
  /-- `SRL3 Rdest,Rsrc,#imm16` (R235). -/
  | srl3 (dest : Reg) (src : Reg) (imm16 : BitVec 16)
  /-- `SRA3 Rdest,Rsrc,#imm16` (R232). -/
  | sra3 (dest : Reg) (src : Reg) (imm16 : BitVec 16)
  /-- `SLL3 Rdest,Rsrc,#imm16` (R229). -/
  | sll3 (dest : Reg) (src : Reg) (imm16 : BitVec 16)
  /-- `LDI Rdest,#imm16` (R182). -/
  | ldi16 (dest : Reg) (imm16 : BitVec 16)
  /-- `STB Rsrc1,@(disp16,Rsrc2)` (R159). -/
  | stbDisp (src1 : Reg) (disp16 : BitVec 16) (src2 : Reg)
  /-- `STH Rsrc1,@(disp16,Rsrc2)` (R162). -/
  | sthDisp (src1 : Reg) (disp16 : BitVec 16) (src2 : Reg)
  /-- `ST Rsrc1,@(disp16,Rsrc2)` (R157). -/
  | stDisp (src1 : Reg) (disp16 : BitVec 16) (src2 : Reg)
  /-- `BSET #bitpos,@(disp16,Rsrc)` (R390). -/
  | bset (bitpos : BitVec 3) (disp16 : BitVec 16) (src : Reg)
  /-- `BCLR #bitpos,@(disp16,Rsrc)` (R391). -/
  | bclr (bitpos : BitVec 3) (disp16 : BitVec 16) (src : Reg)
  /-- `LDB Rdest,@(disp16,Rsrc)` (R146). -/
  | ldbDisp (dest : Reg) (disp16 : BitVec 16) (src : Reg)
  /-- `LDUB Rdest,@(disp16,Rsrc)` (R148). -/
  | ldubDisp (dest : Reg) (disp16 : BitVec 16) (src : Reg)
  /-- `LDH Rdest,@(disp16,Rsrc)` (R150). -/
  | ldhDisp (dest : Reg) (disp16 : BitVec 16) (src : Reg)
  /-- `LDUH Rdest,@(disp16,Rsrc)` (R152). -/
  | lduhDisp (dest : Reg) (disp16 : BitVec 16) (src : Reg)
  /-- `LD Rdest,@(disp16,Rsrc)` (R144). -/
  | ldDisp (dest : Reg) (disp16 : BitVec 16) (src : Reg)
  /-- `BEQ Rsrc1,Rsrc2,pcdisp16` (R256). -/
  | beq (src1 : Reg) (src2 : Reg) (pcdisp16 : BitVec 16)
  /-- `BNE Rsrc1,Rsrc2,pcdisp16` (R266). -/
  | bne (src1 : Reg) (src2 : Reg) (pcdisp16 : BitVec 16)
  /-- `BEQZ Rsrc,pcdisp16` (R257). -/
  | beqz (src : Reg) (pcdisp16 : BitVec 16)
  /-- `BNEZ Rsrc,pcdisp16` (R267). -/
  | bnez (src : Reg) (pcdisp16 : BitVec 16)
  /-- `BLTZ Rsrc,pcdisp16` (R261). -/
  | bltz (src : Reg) (pcdisp16 : BitVec 16)
  /-- `BGEZ Rsrc,pcdisp16` (R258). -/
  | bgez (src : Reg) (pcdisp16 : BitVec 16)
  /-- `BLEZ Rsrc,pcdisp16` (R260). -/
  | blez (src : Reg) (pcdisp16 : BitVec 16)
  /-- `BGTZ Rsrc,pcdisp16` (R259). -/
  | bgtz (src : Reg) (pcdisp16 : BitVec 16)
  /-- `SETH Rdest,#imm16` (R186). -/
  | seth (dest : Reg) (imm16 : BitVec 16)
  /-- `FADD Rdest,Rsrc1,Rsrc2` (R340). -/
  | fadd (dest : Reg) (src1 : Reg) (src2 : Reg)
  /-- `FSUB Rdest,Rsrc1,Rsrc2` (R342). -/
  | fsub (dest : Reg) (src1 : Reg) (src2 : Reg)
  /-- `FCMP Rdest,Rsrc1,Rsrc2` (R375). -/
  | fcmp (dest : Reg) (src1 : Reg) (src2 : Reg)
  /-- `FCMPE Rdest,Rsrc1,Rsrc2` (R376). -/
  | fcmpe (dest : Reg) (src1 : Reg) (src2 : Reg)
  /-- `FMUL Rdest,Rsrc1,Rsrc2` (R344). -/
  | fmul (dest : Reg) (src1 : Reg) (src2 : Reg)
  /-- `FDIV Rdest,Rsrc1,Rsrc2` (R346). -/
  | fdiv (dest : Reg) (src1 : Reg) (src2 : Reg)
  /-- `FMADD Rdest,Rsrc1,Rsrc2` (R350). -/
  | fmadd (dest : Reg) (src1 : Reg) (src2 : Reg)
  /-- `FMSUB Rdest,Rsrc1,Rsrc2` (R356). -/
  | fmsub (dest : Reg) (src1 : Reg) (src2 : Reg)
  /-- `ITOF Rdest,Rsrc` (R370). -/
  | itof (dest : Reg) (src : Reg)
  /-- `UTOF Rdest,Rsrc` (R371). -/
  | utof (dest : Reg) (src : Reg)
  /-- `FTOI Rdest,Rsrc` (R372). -/
  | ftoi (dest : Reg) (src : Reg)
  /-- `FTOS Rdest,Rsrc` (R373). -/
  | ftos (dest : Reg) (src : Reg)
  /-- `BC pcdisp24` (R255). -/
  | bc24 (pcdisp24 : BitVec 24)
  /-- `BNC pcdisp24` (R265). -/
  | bnc24 (pcdisp24 : BitVec 24)
  /-- `BL pcdisp24` (R263). -/
  | bl24 (pcdisp24 : BitVec 24)
  /-- `BRA pcdisp24` (R269). -/
  | bra24 (pcdisp24 : BitVec 24)
  /-- `LD24 Rdest,#imm24` (R180). -/
  | ld24 (dest : Reg) (imm24 : BitVec 24)
  /-- `NOP` as instruction B with its MSB set (R102). -/
  | nopPar
  deriving DecidableEq, Repr

end Sys2Proof
end

