-- ==== Sys2Proof/WellFormed.lean ====
section
/-! DEFINITION. Which instructions are well formed. The types of the operands carry every width; the one check left is the
number of a control register (10_state.md R24). -/

namespace Sys2Proof

/-- CR0 PSW, CR1 CBR, CR2 SPI, CR3 SPU, CR6 BPC, CR7 FPSR: the numbers that name a register (10_state.md R24). -/
def CReg.named (cr : CReg) : Bool :=
  cr = 0 || cr = 1 || cr = 2 || cr = 3 || cr = 6 || cr = 7

/-- A MVFC or MVTC must name a control register that exists (30_encoding.md R110, 10_state.md R24); every other
instruction is well formed at every value of its operands. -/
def Instr.wellFormed (i : Instr) : Bool :=
  match i with
  | .mvfc _ cr => CReg.named cr
  | .mvtc _ cr => CReg.named cr
  | _ => true

end Sys2Proof
end

