-- ==== Sys2Proof/Machine/Ops.lean ====
section
/-! DEFINITION. The named operations over memory and registers, taking an EIT event and the return from one
(10_state.md, 20_memory.md, 60_exceptions.md). -/

namespace Sys2Proof.Machine

/-! ### Memory (20_memory.md R70, R71) -/

/-- What an address that is not listed reads as (70_reset_and_hazards.md R450: memory at reset is the platform's; DESIGN
CHOICE, log entry 7). -/
def Memory.unlisted : Byte := 0

/-- The byte at an address. -/
def Memory.read : Memory → Nat → Byte
  | [], _ => Memory.unlisted
  | (k, v) :: rest, a => if a = k then v else if a < k then Memory.unlisted else Memory.read rest a

/-- A store of one byte. It keeps the canonical form: storing what an unlisted address reads as removes the entry. -/
def Memory.write : Memory → Nat → Byte → Memory
  | [], a, b => if b = Memory.unlisted then [] else [(a, b)]
  | (k, v) :: rest, a, b =>
    if a < k then (if b = Memory.unlisted then (k, v) :: rest else (a, b) :: (k, v) :: rest)
    else if a = k then (if b = Memory.unlisted then rest else (a, b) :: rest)
    else (k, v) :: Memory.write rest a b

/-- The canonical form from a lowest address on: addresses rising and below 2^32, no entry that an unlisted address would
read as. -/
def Memory.wfFrom : Nat → Memory → Bool
  | _, [] => true
  | lo, (k, v) :: rest =>
    decide (lo ≤ k) && decide (k < 2 ^ 32) && decide (v ≠ Memory.unlisted) && Memory.wfFrom (k + 1) rest

/-- The memory is in its canonical form. -/
def Memory.wf (m : Memory) : Bool := Memory.wfFrom 0 m

/-! ### The address map (20_memory.md R78, R80, decision D29) -/

/-- What a map has at an address. -/
def MemMap.backing : MemMap → Nat → Backing
  | [], _ => .absent
  | r :: rest, a => if r.base ≤ a ∧ a < r.base + r.size then r.backing else MemMap.backing rest a

/-- What the platform has at an address. -/
def State.backing (s : State) (a : Word) : Backing := MemMap.backing s.memMap a.toNat

/-- Every one of the `n` bytes from `a` on is backed by something that `p` accepts. -/
def State.allBacked (s : State) (a : Word) (n : Nat) (p : Backing → Bool) : Bool :=
  (List.range n).all fun j => p (s.backing (a + BitVec.ofNat 32 j))

/-- The platform backs all `n` bytes from `a` on. -/
def State.backed (s : State) (a : Word) (n : Nat) : Bool := s.allBacked a n fun b => decide (b ≠ .absent)

/-- All `n` bytes from `a` on are plain memory. -/
def State.ramAt (s : State) (a : Word) (n : Nat) : Bool := s.allBacked a n fun b => decide (b = .ram)

/-- The backing is no device. -/
def noDevice : Backing → Bool
  | .device _ => false
  | _ => true

/-- An access to the `n` bytes from `a` on reaches a device: it is the next of the accesses that devices see (R78, R80; log
entry 39). -/
def State.logAccess (s : State) (a : Word) (n : Nat) (v : Option Word) : State :=
  if s.allBacked a n noDevice then s
  else { s with devLog := { addr := a.toNat, width := n, stored := v } :: s.devLog }

/-! ### The accesses (20_memory.md R71, R78) -/

/-- The byte at an address, for an access of `width` bytes: memory's, or a device's answer. No access reaches an absent
address (`State.access`). -/
def State.readByte (s : State) (width : Nat) (a : Word) : Byte :=
  match s.backing a with
  | .ram => Memory.read s.mem a.toNat
  | .device d => Config.deviceRead s.drawIndex d s.devLog a.toNat width
  | .absent => Memory.unlisted

/-- One byte stored in plain memory, and remembered for the instruction queue (20_memory.md R71, R87). -/
def State.writeByte (s : State) (a : Word) (b : Byte) : State :=
  if s.backing a = .ram then
    { s with
      mem := Memory.write s.mem a.toNat b
      queue := { addr := a.toNat, dist := (a - s.pc).toNat, old := Memory.read s.mem a.toNat } :: s.queue }
  else s

/-- MemRead(a, 1). -/
def State.load8 (s : State) (a : Word) : Byte := s.readByte 1 a

/-- MemRead(a, 2): big-endian (R71, decision D1; log entry 9). -/
def State.load16 (s : State) (a : Word) : Half := s.readByte 2 a ++ s.readByte 2 (a + 1)

/-- MemRead(a, 4): big-endian (R71, decision D1; log entry 9). -/
def State.load32 (s : State) (a : Word) : Word :=
  (s.readByte 4 a ++ s.readByte 4 (a + 1)) ++ (s.readByte 4 (a + 2) ++ s.readByte 4 (a + 3))

/-- What a load of `n` bytes does beside its value: exactly one read, which a device sees (R78). -/
def State.afterLoad (s : State) (a : Word) (n : Nat) : State := s.logAccess a n none

/-- MemWrite(a, 1, v): exactly one write (R78). -/
def State.store8 (s : State) (a : Word) (v : Byte) : State :=
  (s.writeByte a v).logAccess a 1 (some (v.zeroExtend 32))

/-- MemWrite(a, 2, v): exactly one write (R78), big-endian (R71, decision D1; log entry 9). -/
def State.store16 (s : State) (a : Word) (v : Half) : State :=
  ((s.writeByte a (v.extractLsb' 8 8)).writeByte (a + 1) (v.extractLsb' 0 8)).logAccess a 2 (some (v.zeroExtend 32))

/-- MemWrite(a, 4, v): exactly one write (R78), big-endian (R71, decision D1; log entry 9). -/
def State.store32 (s : State) (a : Word) (v : Word) : State :=
  ((((s.writeByte a (v.extractLsb' 24 8)).writeByte (a + 1) (v.extractLsb' 16 8)).writeByte (a + 2)
    (v.extractLsb' 8 8)).writeByte (a + 3) (v.extractLsb' 0 8)).logAccess a 4 (some v)

/-- A halfword access is aligned (20_memory.md R73). -/
def aligned2 (a : Word) : Bool := a.extractLsb' 0 1 = 0

/-- A word access is aligned (20_memory.md R73). -/
def aligned4 (a : Word) : Bool := a.extractLsb' 0 2 = 0

/-! ### General registers (10_state.md R21, R22) -/

/-- A read of a general register: R15 is the stack pointer that SM selects (R22). -/
def State.reg (s : State) (r : Reg) : Word :=
  if h : r.toNat < 15 then s.gpr[r.toNat] else if s.psw.sm then s.spu else s.spi

/-- A write of a general register: R15 is the stack pointer that SM selects (R22). -/
def State.setReg (s : State) (r : Reg) (v : Word) : State :=
  if h : r.toNat < 15 then { s with gpr := s.gpr.set r.toNat v }
  else if s.psw.sm then { s with spu := v } else { s with spi := v }

/-- A write of the condition bit (R29). -/
def State.setC (s : State) (c : Bool) : State := { s with psw := { s.psw with c := c } }

/-! ### The program counter (10_state.md R45, 30_encoding.md R104, R105) -/

/-- Past an instruction of `n` bytes, modulo 2^32 (R104, R105). -/
def State.advance (s : State) (n : Word) : State := { s with pc := s.pc + n }

/-- A control transfer: the instruction queue is filled anew (20_memory.md R87). -/
def State.jump (s : State) (target : Word) : State := { s with pc := target, queue := [] }

/-- A word with its two low-order bits cleared (44_branch.md R250, 90_conflicts.md C1). -/
def wordAlign (a : Word) : Word := a &&& 0xFFFFFFFC

/-! ### Control registers (10_state.md R24, R30, R31, R34, R42) -/

/-- A bit as a word with that bit in place `n`. -/
def bitAt (b : Bool) (n : Nat) : Word := if b then 1#32 <<< n else 0

/-- What MVFC reads of the PSW (R30). -/
def Psw.image (p : Psw) : Word :=
  bitAt p.bsm 15 ||| bitAt p.bie 14 ||| bitAt p.bc 8 ||| bitAt p.sm 7 ||| bitAt p.ie 6 ||| bitAt p.c 0

/-- What MVTC writes to the PSW (R30). -/
def Psw.ofWord (v : Word) : Psw :=
  { bsm := v.getLsbD 15, bie := v.getLsbD 14, bc := v.getLsbD 8, sm := v.getLsbD 7, ie := v.getLsbD 6, c := v.getLsbD 0 }

/-- RM as its two bits (R41). -/
def RoundMode.bits : RoundMode → BitVec 2
  | .nearest => 0b00
  | .zero => 0b01
  | .plusInf => 0b10
  | .minusInf => 0b11

/-- RM from its two bits (R41). -/
def RoundMode.ofBits (hi lo : Bool) : RoundMode :=
  match hi, lo with
  | false, false => .nearest
  | false, true => .zero
  | true, false => .plusInf
  | true, true => .minusInf

/-- FS, the sum of four flags, computed at every read (R36, 90_conflicts.md C24). -/
def Fpsr.fs (f : Fpsr) : Bool := f.fu || f.fz || f.fo || f.fv

/-- What MVFC reads of the FPSR (R42). -/
def Fpsr.image (f : Fpsr) : Word :=
  bitAt f.fs 31 ||| bitAt f.fx 30 ||| bitAt f.fu 29 ||| bitAt f.fz 28 ||| bitAt f.fo 27 ||| bitAt f.fv 26
    ||| bitAt f.ex 14 ||| bitAt f.eu 13 ||| bitAt f.ez 12 ||| bitAt f.eo 11 ||| bitAt f.ev 10 ||| bitAt f.dn 8
    ||| bitAt f.cause.ce 7 ||| bitAt f.cause.cx 6 ||| bitAt f.cause.cu 5 ||| bitAt f.cause.cz 4
    ||| bitAt f.cause.co 3 ||| bitAt f.cause.cv 2 ||| f.rm.bits.zeroExtend 32

/-- The cause bits after a write: a 1 keeps a bit, a 0 clears it (R40 Note 3, R42). -/
def FpCauses.keep (e : FpCauses) (v : Word) : FpCauses :=
  { ce := e.ce && v.getLsbD 7, cx := e.cx && v.getLsbD 6, cu := e.cu && v.getLsbD 5
    cz := e.cz && v.getLsbD 4, co := e.co && v.getLsbD 3, cv := e.cv && v.getLsbD 2 }

/-- What MVTC writes to the FPSR (R42, decision D15; log entry 22). -/
def Fpsr.write (f : Fpsr) (v : Word) : Fpsr :=
  { fx := v.getLsbD 30, fu := v.getLsbD 29, fz := v.getLsbD 28, fo := v.getLsbD 27, fv := v.getLsbD 26
    ex := v.getLsbD 14, eu := v.getLsbD 13, ez := v.getLsbD 12, eo := v.getLsbD 11, ev := v.getLsbD 10
    dn := v.getLsbD 8, cause := f.cause.keep v, rm := RoundMode.ofBits (v.getLsbD 1) (v.getLsbD 0) }

/-- The value MVFC reads of a control register, none where the number names none (41_transfer.md R184, 10_state.md R24). -/
def State.readCR (s : State) (cr : CReg) : Option Word :=
  if cr = 0 then some s.psw.image
  else if cr = 1 then some (bitAt s.psw.c 0)
  else if cr = 2 then some s.spi
  else if cr = 3 then some s.spu
  else if cr = 6 then some s.bpc
  else if cr = 7 then some s.fpsr.image
  else none

/-- The state after MVTC writes a control register, none where the number names none (41_transfer.md R185,
10_state.md R24). A write of CBR is ignored (R31); bit 0 of BPC stays 0 (R34). -/
def State.writeCR (s : State) (cr : CReg) (v : Word) : Option State :=
  if cr = 0 then some { s with psw := Psw.ofWord v }
  else if cr = 1 then some s
  else if cr = 2 then some { s with spi := v }
  else if cr = 3 then some { s with spu := v }
  else if cr = 6 then some { s with bpc := v &&& 0xFFFFFFFE }
  else if cr = 7 then some { s with fpsr := s.fpsr.write v }
  else none

/-! ### EIT entry and return (60_exceptions.md R405 to R408, R414) -/

/-- vector(e) (R408; log entry 10). -/
def EitEvent.vector : EitEvent → Word
  | .ae => Config.vecAE
  | .fpe => Config.vecFPE
  | .trap n => Config.vecTrapBase + 4 * n.zeroExtend 32
  | .ei => Config.vecEI

/-- bpc_value(e, pc) (R407; log entry 12). -/
def EitEvent.bpcValue (e : EitEvent) (pc : Word) : Word :=
  match e with
  | .ae => pc + Config.bpcAEOffset
  | .fpe => pc + Config.bpcFPEOffset
  | .trap _ => pc + 4
  | .ei => pc

/-- sm_value(e): only the external interrupt clears SM (R406; log entry 11). -/
def EitEvent.smValue (e : EitEvent) (sm : Bool) : Bool :=
  match e with
  | .ei => false
  | _ => sm

/-- The EIT entry procedure, common to AE, FPE, TRAP and EI (R405, decision D3; log entry 11). -/
def State.eitEntry (s : State) (e : EitEvent) : State :=
  { s with
    psw := { bsm := s.psw.sm, bie := s.psw.ie, bc := s.psw.c, sm := e.smValue s.psw.sm, ie := false, c := false }
    bpc := e.bpcValue s.pc &&& 0xFFFFFFFE
    pc := e.vector
    queue := [] }

/-- Return from EIT (45_eit_instructions.md R281, 60_exceptions.md R414): the backup bits and BPC are a draw afterwards (U2;
log entry 30). -/
def State.rteReturn (s : State) : State :=
  let bits := Config.rteBackup s.drawIndex (BitVec.ofBool s.psw.bsm ++ BitVec.ofBool s.psw.bie ++ BitVec.ofBool s.psw.bc)
  { s with
    psw := { bsm := bits.getLsbD 2, bie := bits.getLsbD 1, bc := bits.getLsbD 0
             sm := s.psw.bsm, ie := s.psw.bie, c := s.psw.bc }
    bpc := Config.rteBpc s.drawIndex s.bpc &&& 0xFFFFFFFE
    pc := wordAlign s.bpc
    queue := [] }

/-- Reset (60_exceptions.md R430, 70_reset_and_hazards.md R450). Memory, the address map, the devices and the interrupt request
are the platform's and stay as they are (log entry 17). -/
def State.takeReset (s : State) : State :=
  { State.reset with
    mem := s.mem, memMap := s.memMap, devLog := s.devLog, extInt := s.extInt, drawIndex := s.drawIndex }

/-- The acceptance point of the external interrupt (60_exceptions.md R421, decision D8; log entry 16). -/
def State.interruptAccepted (s : State) : Bool := s.extInt && s.psw.ie && aligned4 s.pc

/-- The next draw of a value the spec leaves open has the next number (log entry 32). -/
def State.tick (s : State) : State := { s with drawIndex := s.drawIndex + 1 }

/-! ### How an instruction ends -/

/-- A result goes to a register and the next instruction follows (30_encoding.md R106, R104). -/
def State.writeBack (s : State) (dest : Reg) (v : Word) (len : Word) : Result :=
  .next ((s.setReg dest v).advance len)

/-- A result goes to a register, a flag to C, and the next instruction follows. -/
def State.writeBackC (s : State) (dest : Reg) (v : Word) (c : Bool) (len : Word) : Result :=
  .next (((s.setReg dest v).setC c).advance len)

/-- A flag goes to C and the next instruction follows. -/
def State.writeC (s : State) (c : Bool) (len : Word) : Result :=
  .next ((s.setC c).advance len)

/-- A data access to the `n` bytes from `a` on, which `ok` says is aligned: AE with no access made, a refusal where the
platform backs nothing (20_memory.md R74, R80; log entries 8 and 19), otherwise what the access does. -/
def State.access (s : State) (ok : Bool) (a : Word) (n : Nat) (done : Result) : Result :=
  if ok then (if s.backed a n then done else .refused (.unbackedAddress a)) else .next (s.eitEntry .ae)

/-- A conditional branch: to its target when taken, otherwise to the next instruction (44_branch.md R253). -/
def State.branchIf (s : State) (taken : Bool) (target : Word) (len : Word) : Result :=
  if taken then .next (s.jump target) else .next (s.advance len)

end Sys2Proof.Machine
end

