-- ==== Sys2Proof/Machine/Flags.lean ====
section
/-! DEFINITION. The computations of the condition bit (42_compare_arith_logic.md R190 to R204, 49_bit_operation.md R392). -/

namespace Sys2Proof.Machine

/-- An exact integer outside the signed 32-bit range. -/
def outsideInt32 (x : Int) : Bool := decide (x < -(2 ^ 31)) || decide (2 ^ 31 - 1 < x)

/-- Signed less-than (R191, R192). -/
def signedLess (a b : Word) : Bool := decide (a.toInt < b.toInt)

/-- Unsigned less-than (R193, R194). -/
def unsignedLess (a b : Word) : Bool := decide (a.toNat < b.toNat)

/-- Signed overflow of an addition (R198, R199). -/
def addOverflow (a b : Word) : Bool := outsideInt32 (a.toInt + b.toInt)

/-- Signed overflow of a subtraction (R203). -/
def subOverflow (a b : Word) : Bool := outsideInt32 (a.toInt - b.toInt)

/-- The exact sum of ADDX (R200). -/
def sumWithCarry (a b : Word) (c : Bool) : Nat := a.toNat + b.toNat + c.toNat

/-- The carry of ADDX out of 32 bits (R200). -/
def carryOut (a b : Word) (c : Bool) : Bool := decide (2 ^ 32 ≤ sumWithCarry a b c)

/-- The exact difference of SUBX (R204). -/
def diffWithBorrow (a b : Word) (c : Bool) : Int := (a.toNat : Int) - b.toNat - c.toNat

/-- The borrow of SUBX (R204). -/
def borrowOut (a b : Word) (c : Bool) : Bool := decide (diffWithBorrow a b c < 0)

/-- The bit of a register that BTST tests (49_bit_operation.md R392). -/
def testBit (x : Word) (bitpos : BitVec 3) : Bool := x.getLsbD (7 - bitpos.toNat)

end Sys2Proof.Machine
end

