-- ==== Sys2Proof/Machine/Operands.lean ====
section
/-! DEFINITION. The operand forms: immediates, displacements, addressing modes and branch targets
(30_encoding.md R111 to R113, 44_branch.md R250, R251). -/

namespace Sys2Proof.Machine

/-- sext_n: an immediate or a displacement, sign-extended to 32 bits (R111, R112). -/
def sext {n : Nat} (x : BitVec n) : Word := x.signExtend 32

/-- zext_n: an immediate, zero-extended to 32 bits (R111). -/
def zext {n : Nat} (x : BitVec n) : Word := x.zeroExtend 32

/-- SETH's immediate, placed in the upper halfword (R111). -/
def highHalf (imm16 : BitVec 16) : Word := imm16 ++ 0#16

/-- The count of a register shift: the five low-order bits (43_muldiv_shift.md R227). -/
def shiftCount (x : Word) : Nat := (x.extractLsb' 0 5).toNat

/-- The count of a three-operand shift: the five low-order bits of the immediate (43_muldiv_shift.md R227). -/
def shiftCountImm (imm16 : BitVec 16) : Nat := (imm16.extractLsb' 0 5).toNat

/-- The mask of the bit that `bitpos` names in a byte, counted from its most significant bit (R111). -/
def bitMask (bitpos : BitVec 3) : Byte := 1#8 <<< (7 - bitpos.toNat)

/-- Register indirect, and register indirect with the update after the access: the register's value (R113 (2), (4)). -/
def State.eaIndirect (s : State) (r : Reg) : Word := s.reg r

/-- Register relative indirect: the register plus the sign-extended displacement, modulo 2^32 (R112, R113 (3)). -/
def State.eaDisp (s : State) (r : Reg) (disp16 : BitVec 16) : Word := s.reg r + sext disp16

/-- Register indirect with 4 added before the access (R113 (4)). -/
def State.eaPreInc (s : State) (r : Reg) : Word := s.reg r + 4

/-- Register indirect with 4 subtracted before the access (R113 (4)). -/
def State.eaPreDec (s : State) (r : Reg) : Word := s.reg r - 4

/-- The target of a PC-relative branch (44_branch.md R250). -/
def State.relTarget {n : Nat} (s : State) (pcdisp : BitVec n) : Word := wordAlign s.pc + (sext pcdisp <<< 2)

/-- The target of a jump through a register (44_branch.md R250). -/
def State.regTarget (s : State) (r : Reg) : Word := wordAlign (s.reg r)

/-- The return address that BL and JL leave in R14 (44_branch.md R251). -/
def State.linkAddress (s : State) : Word := wordAlign s.pc + 4

/-- R14, the link register (10_state.md R23). -/
def linkReg : Reg := 14

end Sys2Proof.Machine
end

