-- ==== Sys2Proof/Machine/Arith.lean ====
section
/-! DEFINITION. Compare, arithmetic and logic instructions (42_compare_arith_logic.md R190 to R212). -/

namespace Sys2Proof.Machine

/-! ### Compare -/

/-- `CMP Rsrc1,Rsrc2` (R191). -/
def execCmp (src1 src2 : Reg) (s : State) : Result :=
  s.writeC (signedLess (s.reg src1) (s.reg src2)) 2

/-- `CMPI Rsrc,#imm16` (R192). -/
def execCmpi (src : Reg) (imm16 : BitVec 16) (s : State) : Result :=
  s.writeC (signedLess (s.reg src) (sext imm16)) 4

/-- `CMPU Rsrc1,Rsrc2` (R193). -/
def execCmpu (src1 src2 : Reg) (s : State) : Result :=
  s.writeC (unsignedLess (s.reg src1) (s.reg src2)) 2

/-- `CMPUI Rsrc,#imm16` (R194): the immediate is sign-extended, then unsigned. -/
def execCmpui (src : Reg) (imm16 : BitVec 16) (s : State) : Result :=
  s.writeC (unsignedLess (s.reg src) (sext imm16)) 4

/-! ### Arithmetic -/

/-- `ADD Rdest,Rsrc` (R195). -/
def execAdd (dest src : Reg) (s : State) : Result :=
  s.writeBack dest (s.reg dest + s.reg src) 2

/-- `ADD3 Rdest,Rsrc,#imm16` (R196). -/
def execAdd3 (dest src : Reg) (imm16 : BitVec 16) (s : State) : Result :=
  s.writeBack dest (s.reg src + sext imm16) 4

/-- `ADDI Rdest,#imm8` (R197). -/
def execAddi (dest : Reg) (imm8 : BitVec 8) (s : State) : Result :=
  s.writeBack dest (s.reg dest + sext imm8) 2

/-- `ADDV Rdest,Rsrc` (R198). -/
def execAddv (dest src : Reg) (s : State) : Result :=
  s.writeBackC dest (s.reg dest + s.reg src) (addOverflow (s.reg dest) (s.reg src)) 2

/-- `ADDV3 Rdest,Rsrc,#imm16` (R199). -/
def execAddv3 (dest src : Reg) (imm16 : BitVec 16) (s : State) : Result :=
  s.writeBackC dest (s.reg src + sext imm16) (addOverflow (s.reg src) (sext imm16)) 4

/-- `ADDX Rdest,Rsrc` (R200). -/
def execAddx (dest src : Reg) (s : State) : Result :=
  s.writeBackC dest (BitVec.ofNat 32 (sumWithCarry (s.reg dest) (s.reg src) s.psw.c))
    (carryOut (s.reg dest) (s.reg src) s.psw.c) 2

/-- `NEG Rdest,Rsrc` (R201). -/
def execNeg (dest src : Reg) (s : State) : Result :=
  s.writeBack dest (0 - s.reg src) 2

/-- `SUB Rdest,Rsrc` (R202). -/
def execSub (dest src : Reg) (s : State) : Result :=
  s.writeBack dest (s.reg dest - s.reg src) 2

/-- `SUBV Rdest,Rsrc` (R203). -/
def execSubv (dest src : Reg) (s : State) : Result :=
  s.writeBackC dest (s.reg dest - s.reg src) (subOverflow (s.reg dest) (s.reg src)) 2

/-- `SUBX Rdest,Rsrc` (R204). -/
def execSubx (dest src : Reg) (s : State) : Result :=
  s.writeBackC dest (BitVec.ofInt 32 (diffWithBorrow (s.reg dest) (s.reg src) s.psw.c))
    (borrowOut (s.reg dest) (s.reg src) s.psw.c) 2

/-! ### Logic -/

/-- `AND Rdest,Rsrc` (R205). -/
def execAnd (dest src : Reg) (s : State) : Result :=
  s.writeBack dest (s.reg dest &&& s.reg src) 2

/-- `AND3 Rdest,Rsrc,#imm16` (R206). -/
def execAnd3 (dest src : Reg) (imm16 : BitVec 16) (s : State) : Result :=
  s.writeBack dest (s.reg src &&& zext imm16) 4

/-- `NOT Rdest,Rsrc` (R207). -/
def execNot (dest src : Reg) (s : State) : Result :=
  s.writeBack dest (~~~ s.reg src) 2

/-- `OR Rdest,Rsrc` (R208). -/
def execOr (dest src : Reg) (s : State) : Result :=
  s.writeBack dest (s.reg dest ||| s.reg src) 2

/-- `OR3 Rdest,Rsrc,#imm16` (R209). -/
def execOr3 (dest src : Reg) (imm16 : BitVec 16) (s : State) : Result :=
  s.writeBack dest (s.reg src ||| zext imm16) 4

/-- `XOR Rdest,Rsrc` (R210). -/
def execXor (dest src : Reg) (s : State) : Result :=
  s.writeBack dest (s.reg dest ^^^ s.reg src) 2

/-- `XOR3 Rdest,Rsrc,#imm16` (R211). -/
def execXor3 (dest src : Reg) (imm16 : BitVec 16) (s : State) : Result :=
  s.writeBack dest (s.reg src ^^^ zext imm16) 4

end Sys2Proof.Machine
end

