-- ==== Sys2Proof/Machine/BitOp.lean ====
section
/-! DEFINITION. Bit operation instructions (49_bit_operation.md R390 to R396). -/

namespace Sys2Proof.Machine

/-- The read-modify-write of one byte: LOCK is 1 from before the read to after the write, and 0 afterwards whatever it was
(R390 (a), (b), (d)); exactly one read and one write, in that order (20_memory.md R78). -/
def State.modifyByte (s : State) (a : Word) (f : Byte → Byte) : State :=
  let locked : State := { s with lock := true }
  { (locked.afterLoad a 1).store8 a (f (locked.load8 a)) with lock := false }

/-- BSET and BCLR: the read-modify-write of one byte, and the next instruction follows. -/
def State.modifyAs (s : State) (a : Word) (f : Byte → Byte) : Result :=
  s.access true a 1 (.next ((s.modifyByte a f).advance 4))

/-- `BSET #bitpos,@(disp16,Rsrc)` (R390). -/
def execBset (bitpos : BitVec 3) (disp16 : BitVec 16) (src : Reg) (s : State) : Result :=
  s.modifyAs (s.eaDisp src disp16) fun t => t ||| bitMask bitpos

/-- `BCLR #bitpos,@(disp16,Rsrc)` (R391). -/
def execBclr (bitpos : BitVec 3) (disp16 : BitVec 16) (src : Reg) (s : State) : Result :=
  s.modifyAs (s.eaDisp src disp16) fun t => t &&& ~~~ bitMask bitpos

/-- `BTST #bitpos,Rsrc` (R392). -/
def execBtst (bitpos : BitVec 3) (src : Reg) (s : State) : Result :=
  s.writeC (testBit (s.reg src) bitpos) 2

/-- `SETPSW #imm8` (R394): immediate bits b2 to b6 are ignored (decision D14; log entry 21). -/
def execSetpsw (imm8 : BitVec 8) (s : State) : Result :=
  .next (({ s with
    psw := { s.psw with
      sm := s.psw.sm || imm8.getLsbD 7, ie := s.psw.ie || imm8.getLsbD 6, c := s.psw.c || imm8.getLsbD 0 } } : State).advance 2)

/-- `CLRPSW #imm8` (R395): immediate bits b2 to b6 are ignored (decision D14; log entry 21). -/
def execClrpsw (imm8 : BitVec 8) (s : State) : Result :=
  .next (({ s with
    psw := { s.psw with
      sm := s.psw.sm && !imm8.getLsbD 7, ie := s.psw.ie && !imm8.getLsbD 6, c := s.psw.c && !imm8.getLsbD 0 } } : State).advance 2)

end Sys2Proof.Machine
end

