-- ==== Sys2Proof/Machine/Branch.lean ====
section
/-! DEFINITION. Branch instructions and NOP (44_branch.md R250 to R272, 30_encoding.md R102). -/

namespace Sys2Proof.Machine

/-! ### On the condition bit -/

/-- `BC pcdisp8` (R254). -/
def execBc8 (pcdisp8 : BitVec 8) (s : State) : Result :=
  s.branchIf s.psw.c (s.relTarget pcdisp8) 2

/-- `BC pcdisp24` (R255). -/
def execBc24 (pcdisp24 : BitVec 24) (s : State) : Result :=
  s.branchIf s.psw.c (s.relTarget pcdisp24) 4

/-- `BNC pcdisp8` (R264). -/
def execBnc8 (pcdisp8 : BitVec 8) (s : State) : Result :=
  s.branchIf (!s.psw.c) (s.relTarget pcdisp8) 2

/-- `BNC pcdisp24` (R265). -/
def execBnc24 (pcdisp24 : BitVec 24) (s : State) : Result :=
  s.branchIf (!s.psw.c) (s.relTarget pcdisp24) 4

/-! ### On registers -/

/-- `BEQ Rsrc1,Rsrc2,pcdisp16` (R256). -/
def execBeq (src1 src2 : Reg) (pcdisp16 : BitVec 16) (s : State) : Result :=
  s.branchIf (s.reg src1 = s.reg src2) (s.relTarget pcdisp16) 4

/-- `BNE Rsrc1,Rsrc2,pcdisp16` (R266). -/
def execBne (src1 src2 : Reg) (pcdisp16 : BitVec 16) (s : State) : Result :=
  s.branchIf (s.reg src1 ≠ s.reg src2) (s.relTarget pcdisp16) 4

/-- `BEQZ Rsrc,pcdisp16` (R257). -/
def execBeqz (src : Reg) (pcdisp16 : BitVec 16) (s : State) : Result :=
  s.branchIf (s.reg src = 0) (s.relTarget pcdisp16) 4

/-- `BNEZ Rsrc,pcdisp16` (R267). -/
def execBnez (src : Reg) (pcdisp16 : BitVec 16) (s : State) : Result :=
  s.branchIf (s.reg src ≠ 0) (s.relTarget pcdisp16) 4

/-- `BLTZ Rsrc,pcdisp16` (R261). -/
def execBltz (src : Reg) (pcdisp16 : BitVec 16) (s : State) : Result :=
  s.branchIf (s.reg src).msb (s.relTarget pcdisp16) 4

/-- `BGEZ Rsrc,pcdisp16` (R258). -/
def execBgez (src : Reg) (pcdisp16 : BitVec 16) (s : State) : Result :=
  s.branchIf (!(s.reg src).msb) (s.relTarget pcdisp16) 4

/-- `BLEZ Rsrc,pcdisp16` (R260). -/
def execBlez (src : Reg) (pcdisp16 : BitVec 16) (s : State) : Result :=
  s.branchIf ((s.reg src).msb || s.reg src = 0) (s.relTarget pcdisp16) 4

/-- `BGTZ Rsrc,pcdisp16` (R259). -/
def execBgtz (src : Reg) (pcdisp16 : BitVec 16) (s : State) : Result :=
  s.branchIf (!(s.reg src).msb && s.reg src ≠ 0) (s.relTarget pcdisp16) 4

/-! ### Unconditional -/

/-- `BRA pcdisp8` (R268). -/
def execBra8 (pcdisp8 : BitVec 8) (s : State) : Result :=
  .next (s.jump (s.relTarget pcdisp8))

/-- `BRA pcdisp24` (R269). -/
def execBra24 (pcdisp24 : BitVec 24) (s : State) : Result :=
  .next (s.jump (s.relTarget pcdisp24))

/-- `BL pcdisp8` (R262). -/
def execBl8 (pcdisp8 : BitVec 8) (s : State) : Result :=
  .next ((s.setReg linkReg s.linkAddress).jump (s.relTarget pcdisp8))

/-- `BL pcdisp24` (R263). -/
def execBl24 (pcdisp24 : BitVec 24) (s : State) : Result :=
  .next ((s.setReg linkReg s.linkAddress).jump (s.relTarget pcdisp24))

/-- `JL Rsrc` (R270): the target is read before R14 is written (decision D13; log entry 20). -/
def execJl (src : Reg) (s : State) : Result :=
  .next ((s.setReg linkReg s.linkAddress).jump (s.regTarget src))

/-- `JMP Rsrc` (R271). -/
def execJmp (src : Reg) (s : State) : Result :=
  .next (s.jump (s.regTarget src))

/-- `NOP` (R272). -/
def execNop (s : State) : Result :=
  .next (s.advance 2)

/-- The NOP 0xF000 of a low-order halfword (30_encoding.md R102; log entry 35). -/
def execNopPar (s : State) : Result :=
  .next (s.advance 2)

end Sys2Proof.Machine
end

