-- ==== Sys2Proof/Machine/Dsp.lean ====
section
/-! DEFINITION. DSP function instructions (46_dsp.md R290 to R309). -/

namespace Sys2Proof.Machine

/-! ### The accumulator (R290, 10_state.md R43) -/

/-- The high-order halfword as a signed integer (R290). -/
def hi16 (x : Word) : Int := (x.extractLsb' 16 16).toInt

/-- The low-order halfword as a signed integer (R290). -/
def lo16 (x : Word) : Int := (x.extractLsb' 0 16).toInt

/-- ACC64, the sign-extended 64-bit view (R290, 10_state.md R43). -/
def acc64 (a : Acc) : BitVec 64 := a.signExtend 64

/-- The accumulator takes the low 56 bits of a signed integer and the next instruction follows (R290). -/
def State.writeAcc (s : State) (v : Int) : Result :=
  .next (({ s with acc := BitVec.ofInt 56 v } : State).advance 2)

/-- The accumulator adds a signed integer modulo 2^56 (R308, decision D31; log entry 29). -/
def State.accumulate (s : State) (v : Int) : Result := s.writeAcc (s.acc.toInt + v)

/-! ### Multiply -/

/-- `MULHI Rsrc1,Rsrc2` (R292). -/
def execMulhi (src1 src2 : Reg) (s : State) : Result :=
  s.writeAcc (hi16 (s.reg src1) * hi16 (s.reg src2) * 2 ^ 16)

/-- `MULLO Rsrc1,Rsrc2` (R293). -/
def execMullo (src1 src2 : Reg) (s : State) : Result :=
  s.writeAcc (lo16 (s.reg src1) * lo16 (s.reg src2) * 2 ^ 16)

/-- `MULWHI Rsrc1,Rsrc2` (R294). -/
def execMulwhi (src1 src2 : Reg) (s : State) : Result :=
  s.writeAcc ((s.reg src1).toInt * hi16 (s.reg src2))

/-- `MULWLO Rsrc1,Rsrc2` (R295). -/
def execMulwlo (src1 src2 : Reg) (s : State) : Result :=
  s.writeAcc ((s.reg src1).toInt * lo16 (s.reg src2))

/-! ### Multiply and accumulate -/

/-- `MACHI Rsrc1,Rsrc2` (R296). -/
def execMachi (src1 src2 : Reg) (s : State) : Result :=
  s.accumulate (hi16 (s.reg src1) * hi16 (s.reg src2) * 2 ^ 16)

/-- `MACLO Rsrc1,Rsrc2` (R297). -/
def execMaclo (src1 src2 : Reg) (s : State) : Result :=
  s.accumulate (lo16 (s.reg src1) * lo16 (s.reg src2) * 2 ^ 16)

/-- `MACWHI Rsrc1,Rsrc2` (R298). -/
def execMacwhi (src1 src2 : Reg) (s : State) : Result :=
  s.accumulate ((s.reg src1).toInt * hi16 (s.reg src2))

/-- `MACWLO Rsrc1,Rsrc2` (R299). -/
def execMacwlo (src1 src2 : Reg) (s : State) : Result :=
  s.accumulate ((s.reg src1).toInt * lo16 (s.reg src2))

/-! ### Transfers -/

/-- `MVFACHI Rdest` (R300). -/
def execMvfachi (dest : Reg) (s : State) : Result :=
  s.writeBack dest ((acc64 s.acc).extractLsb' 32 32) 2

/-- `MVFACLO Rdest` (R301). -/
def execMvfaclo (dest : Reg) (s : State) : Result :=
  s.writeBack dest ((acc64 s.acc).extractLsb' 0 32) 2

/-- `MVFACMI Rdest` (R302). -/
def execMvfacmi (dest : Reg) (s : State) : Result :=
  s.writeBack dest ((acc64 s.acc).extractLsb' 16 32) 2

/-- `MVTACHI Rsrc` (R303): the eight high-order bits of the register are discarded. -/
def execMvtachi (src : Reg) (s : State) : Result :=
  .next (({ s with acc := (s.reg src).extractLsb' 0 24 ++ s.acc.extractLsb' 0 32 } : State).advance 2)

/-- `MVTACLO Rsrc` (R304). -/
def execMvtaclo (src : Reg) (s : State) : Result :=
  .next (({ s with acc := s.acc.extractLsb' 32 24 ++ s.reg src } : State).advance 2)

/-! ### Rounding -/

/-- The saturation process of RAC and RACH (R305, R306): the doubled value plus a half of `2 ^ k`, held between `-2^47` and
`top`, its low `k` bits cleared. -/
def roundAcc (a : Int) (k : Nat) (top : Int) : Int :=
  let t := a * 2 + 2 ^ (k - 1)
  if t > top then top else if t < -(2 ^ 47) then -(2 ^ 47) else t / 2 ^ k * 2 ^ k

/-- `RAC` (R305). -/
def execRac (s : State) : Result :=
  s.writeAcc (roundAcc (acc64 s.acc).toInt 16 0x00007FFFFFFF0000)

/-- `RACH` (R306). -/
def execRach (s : State) : Result :=
  s.writeAcc (roundAcc (acc64 s.acc).toInt 32 0x00007FFF00000000)

end Sys2Proof.Machine
end

