-- ==== Sys2Proof/Machine/Eit.lean ====
section
/-! DEFINITION. TRAP and RTE (45_eit_instructions.md R280 to R283). -/

namespace Sys2Proof.Machine

/-- `TRAP #imm4` (R280): the EIT entry of 60_exceptions.md R405, always taken. -/
def execTrap (imm4 : BitVec 4) (s : State) : Result :=
  .next (s.eitEntry (.trap imm4))

/-- `RTE` (R281). -/
def execRte (s : State) : Result :=
  .next s.rteReturn

end Sys2Proof.Machine
end

