-- ==== Sys2Proof/Machine/Float.lean ====
section
/-! DEFINITION. The floating-point exception model that the twelve FPU operation instructions share
(47_float_arith.md R320 to R337): operand classes, exact values, rounding, the finish. -/

namespace Sys2Proof.Machine

/-! ### The single-precision format (R320) -/

/-- s, value bit 31. -/
def fpSign (x : Word) : Bool := x.msb

/-- e, the biased exponent. -/
def fpExp (x : Word) : Nat := (x.extractLsb' 23 8).toNat

/-- f, the fraction. -/
def fpFrac (x : Word) : Nat := (x.extractLsb' 0 23).toNat

/-- A zero of either sign. -/
def isZero (x : Word) : Bool := fpExp x = 0 && fpFrac x = 0

/-- A denormalized number. -/
def isDenormal (x : Word) : Bool := fpExp x = 0 && fpFrac x ≠ 0

/-- An infinity of either sign. -/
def isInfinite (x : Word) : Bool := fpExp x = 255 && fpFrac x = 0

/-- A quiet NaN: the most significant bit of the fraction is 1. -/
def isQnan (x : Word) : Bool := fpExp x = 255 && decide (2 ^ 22 ≤ fpFrac x)

/-- A signaling NaN: the most significant bit of the fraction is 0. -/
def isSnan (x : Word) : Bool := fpExp x = 255 && fpFrac x ≠ 0 && decide (fpFrac x < 2 ^ 22)

/-- A NaN of either kind. -/
def isNan (x : Word) : Bool := isQnan x || isSnan x

/-- The magnitude of a number in units of 2^-149, the distance of the denormalized numbers. For an infinity it is the
2^128 that lies above every finite magnitude (the order of 48_float_convert_compare.md R375). -/
def fpMag (x : Word) : Nat :=
  if fpExp x = 0 then fpFrac x else (2 ^ 23 + fpFrac x) * 2 ^ (fpExp x - 1)

/-- `val`, in units of 2^-149. -/
def fpVal (x : Word) : Int := if fpSign x then -(fpMag x : Int) else fpMag x

/-- The zero of a sign. -/
def signedZero (neg : Bool) : Word := if neg then 0x80000000 else 0

/-- The infinity of a sign. -/
def signedInf (neg : Bool) : Word := if neg then 0xFF800000 else 0x7F800000

/-- +MAX or -MAX (R329). -/
def signedMax (neg : Bool) : Word := if neg then 0xFF7FFFFF else 0x7F7FFFFF

/-- The QNaN of an invalid operation on operands that are no NaN (R334). -/
def defaultNan : Word := 0x7FFFFFFF

/-- An SNaN converted to a QNaN (R334, Note 1). -/
def quiet (x : Word) : Word := x ||| 0x00400000

/-- A denormalized operand as the zero of its sign (R322). -/
def flush (x : Word) : Word := if isDenormal x then x &&& 0x80000000 else x

/-- A number with its sign inverted (R342, R356). -/
def negate (x : Word) : Word := x ^^^ 0x80000000

/-! ### Sets of exceptions (R324, R326 to R328) -/

/-- {UIPL}. -/
def uipl : FpCauses := { FpCauses.none with ce := true }

/-- {IXCT}. -/
def ixct : FpCauses := { FpCauses.none with cx := true }

/-- {UDF}. -/
def udf : FpCauses := { FpCauses.none with cu := true }

/-- {DIV0}. -/
def div0 : FpCauses := { FpCauses.none with cz := true }

/-- {OVF}. -/
def ovf : FpCauses := { FpCauses.none with co := true }

/-- {IVLD}. -/
def ivld : FpCauses := { FpCauses.none with cv := true }

/-- The union of two sets. -/
def FpCauses.union (e f : FpCauses) : FpCauses :=
  { ce := e.ce || f.ce, cx := e.cx || f.cx, cu := e.cu || f.cu
    cz := e.cz || f.cz, co := e.co || f.co, cv := e.cv || f.cv }

/-- Whether a set ends in EIT processing: UIPL always, any other exception when its enable bit is 1 (R327). -/
def Fpsr.triggers (f : Fpsr) (e : FpCauses) : Bool :=
  e.ce || (e.cx && f.ex) || (e.cu && f.eu) || (e.cz && f.ez) || (e.co && f.eo) || (e.cv && f.ev)

/-- The sticky flags after an operation that ends without EIT processing (R327, 10_state.md R37). -/
def Fpsr.raiseFlags (f : Fpsr) (e : FpCauses) : Fpsr :=
  { f with fx := f.fx || e.cx, fu := f.fu || e.cu, fz := f.fz || e.cz, fo := f.fo || e.co, fv := f.fv || e.cv }

/-! ### Rounding (R323) and the arithmetic finish (R329 to R331, R336) -/

/-- Whether the quotient `q` of an exact magnitude, with the remainder `rem` out of `den`, rounds up (R323). -/
def roundsUp (rm : RoundMode) (neg : Bool) (q rem den : Nat) : Bool :=
  match rm with
  | .nearest => decide (den < 2 * rem) || (2 * rem = den && q % 2 = 1)
  | .zero => false
  | .plusInf => !neg && rem ≠ 0
  | .minusInf => neg && rem ≠ 0

/-- The exponent of an exact magnitude `num / den` of at least 2^-149: `2 ^ (l - 149)` is the largest power of two that is
not above it. -/
def fpLog (num den : Nat) : Nat := Nat.log2 (num * 2 ^ 149 / den)

/-- The divisor whose quotient out of `num * 2 ^ 172` is the 24-bit significand of `num / den`. -/
def fpScale (num den : Nat) : Nat := den * 2 ^ fpLog num den

/-- The 24-bit significand of an exact magnitude of at least 2^-126, before rounding. -/
def fpQuot (num den : Nat) : Nat := num * 2 ^ 172 / fpScale num den

/-- What the significand leaves of an exact magnitude, out of `fpScale`. -/
def fpRem (num den : Nat) : Nat := num * 2 ^ 172 % fpScale num den

/-- `round(r)` for a magnitude `r = num / den` of at least 2^-126, as the exponent and fraction fields of the format in one
number with the exponent unbounded: biased exponent times 2^23 plus fraction (R323, R336). -/
def roundMag (rm : RoundMode) (neg : Bool) (num den : Nat) : Nat :=
  (fpLog num den - 23) * 2 ^ 23 + fpQuot num den
    + (roundsUp rm neg (fpQuot num den) (fpRem num den) (fpScale num den)).toNat

/-- A sign and a magnitude as a single-precision number. -/
def fpPack (neg : Bool) (mag : Nat) : Word := BitVec.ofNat 32 ((if neg then 2 ^ 31 else 0) + mag)

/-- The result of a masked overflow (R329). -/
def overflowValue (rm : RoundMode) (neg : Bool) : Word :=
  match rm, neg with
  | .minusInf, false => signedMax false
  | .plusInf, true => signedMax true
  | .zero, _ => signedMax neg
  | _, _ => signedInf neg

/-- What an operation detects, and its candidate result. The candidate is not read where the set ends in EIT processing
(R327). -/
structure FpOutcome where
  /-- E. -/
  causes : FpCauses
  /-- v. -/
  value : Word
  deriving DecidableEq, Repr

/-- `fp_finish(r, rnd)` for the exact non-zero `r = ± num / den` (R336): underflow is judged before rounding, overflow after
it (decisions D18, D19; log entry 24). -/
def fpFinish (f : Fpsr) (rnd : RoundMode) (neg : Bool) (num den : Nat) : FpOutcome :=
  if num * 2 ^ 126 < den then
    { causes := if !f.eu && !f.dn then udf.union uipl else udf, value := signedZero neg }
  else if 0x7F800000 ≤ roundMag rnd neg num den then
    { causes := if f.eo then ovf else ovf.union ixct, value := overflowValue f.rm neg }
  else
    { causes := if fpRem num den = 0 then FpCauses.none else ixct, value := fpPack neg (roundMag rnd neg num den) }

/-! ### Two operands (R325, R334) -/

/-- The classification order of two operands (R325, decision D17; log entry 23): SNaN, then QNaN, then denormalized, then the
arithmetic case `core`. Which NaN results is rule R334. -/
def fpBinary (f : Fpsr) (core : Word → Word → FpOutcome) (a b : Word) : FpOutcome :=
  if isSnan a || isSnan b then { causes := ivld, value := if isSnan b then quiet b else quiet a }
  else if isQnan a || isQnan b then { causes := FpCauses.none, value := if isQnan b then b else a }
  else if (isDenormal a || isDenormal b) && !f.dn then { causes := uipl, value := signedZero false }
  else core (flush a) (flush b)

/-- The sign of an exact zero sum (R337, decision D22; log entry 24): that of two addends of one sign, otherwise minus when
rounding toward minus infinity. -/
def zeroSumSign (f : Fpsr) (a b : Word) : Bool :=
  if fpSign a = fpSign b then fpSign a else f.rm = .minusInf

/-- The arithmetic case of FADD (R340, R341). -/
def addCore (f : Fpsr) (a b : Word) : FpOutcome :=
  if isInfinite a && isInfinite b && fpSign a != fpSign b then { causes := ivld, value := defaultNan }
  else if isInfinite a then { causes := FpCauses.none, value := a }
  else if isInfinite b then { causes := FpCauses.none, value := b }
  else if fpVal a + fpVal b = 0 then { causes := FpCauses.none, value := signedZero (zeroSumSign f a b) }
  else fpFinish f f.rm (decide (fpVal a + fpVal b < 0)) (fpVal a + fpVal b).natAbs (2 ^ 149)

/-- The arithmetic case of FSUB: FADD with the second operand's sign inverted (R342, R343). -/
def subCore (f : Fpsr) (a b : Word) : FpOutcome := addCore f a (negate b)

/-- The arithmetic case of FMUL and of step 1 of FMADD and FMSUB, in a rounding mode (R344, R345, R351). -/
def mulCore (f : Fpsr) (rnd : RoundMode) (a b : Word) : FpOutcome :=
  let neg := fpSign a != fpSign b
  if (isZero a && isInfinite b) || (isInfinite a && isZero b) then { causes := ivld, value := defaultNan }
  else if isInfinite a || isInfinite b then { causes := FpCauses.none, value := signedInf neg }
  else if isZero a || isZero b then { causes := FpCauses.none, value := signedZero neg }
  else fpFinish f rnd neg (fpMag a * fpMag b) (2 ^ 298)

/-- The arithmetic case of FDIV (R346, R347, R332). -/
def divCore (f : Fpsr) (a b : Word) : FpOutcome :=
  let neg := fpSign a != fpSign b
  if isInfinite a then
    if isInfinite b then { causes := ivld, value := defaultNan }
    else { causes := FpCauses.none, value := signedInf neg }
  else if isInfinite b then { causes := FpCauses.none, value := signedZero neg }
  else if isZero b then
    if isZero a then { causes := ivld, value := defaultNan } else { causes := div0, value := signedInf neg }
  else if isZero a then { causes := FpCauses.none, value := signedZero neg }
  else fpFinish f f.rm neg (fpMag a) (fpMag b)

/-! ### How an FPU operation instruction ends (R327) -/

/-- The cause bits record E whatever follows; then either the EIT entry with nothing else written, or the flags, the
register and the next instruction (R326, R327; log entry 22). -/
def State.fpEnd (s : State) (dest : Reg) (o : FpOutcome) : Result :=
  let f : Fpsr := { s.fpsr with cause := o.causes }
  if s.fpsr.triggers o.causes then .next (({ s with fpsr := f } : State).eitEntry .fpe)
  else ({ s with fpsr := f.raiseFlags o.causes } : State).writeBack dest o.value 4

end Sys2Proof.Machine
end

