-- ==== Sys2Proof/Machine/FloatArith.lean ====
section
/-! DEFINITION. Floating-point arithmetic instructions (47_float_arith.md R340 to R359). -/

namespace Sys2Proof.Machine

/-- `FADD Rdest,Rsrc1,Rsrc2` (R340). -/
def execFadd (dest src1 src2 : Reg) (s : State) : Result :=
  s.fpEnd dest (fpBinary s.fpsr (addCore s.fpsr) (s.reg src1) (s.reg src2))

/-- `FSUB Rdest,Rsrc1,Rsrc2` (R342). -/
def execFsub (dest src1 src2 : Reg) (s : State) : Result :=
  s.fpEnd dest (fpBinary s.fpsr (subCore s.fpsr) (s.reg src1) (s.reg src2))

/-- `FMUL Rdest,Rsrc1,Rsrc2` (R344). -/
def execFmul (dest src1 src2 : Reg) (s : State) : Result :=
  s.fpEnd dest (fpBinary s.fpsr (mulCore s.fpsr s.fpsr.rm) (s.reg src1) (s.reg src2))

/-- `FDIV Rdest,Rsrc1,Rsrc2` (R346). -/
def execFdiv (dest src1 src2 : Reg) (s : State) : Result :=
  s.fpEnd dest (fpBinary s.fpsr (divCore s.fpsr) (s.reg src1) (s.reg src2))

/-! ### FMADD and FMSUB (R350 to R358) -/

/-- Step 1: the product, rounded toward zero (R351). -/
def fmaStep1 (f : Fpsr) (a b : Word) : FpOutcome := fpBinary f (mulCore f .zero) a b

/-- The check of Rdest when step 1 ends in EIT processing (R353, decision D21; log entry 26). -/
def fmaPrecheck (f : Fpsr) (d : Word) : FpCauses :=
  if isDenormal d && !f.dn then uipl else if isSnan d then ivld else FpCauses.none

/-- Step 2 after a masked overflow in step 1 (R354): the immediate value `v` (its sign inverted for FMSUB, R356) replaces a
zero or a number and meets an infinity as an addend would. -/
def fmaOverflowed (d v : Word) : FpOutcome :=
  if isInfinite d then
    if isInfinite v && fpSign d != fpSign v then { causes := ivld, value := defaultNan }
    else { causes := FpCauses.none, value := d }
  else { causes := FpCauses.none, value := v }

/-- Step 2 on Rdest and the outcome of step 1 (R352; R356 with `sub`), the cases in the rule's order. -/
def fmaStep2 (f : Fpsr) (sub : Bool) (d : Word) (p : FpOutcome) : FpOutcome :=
  let addend := if sub then negate p.value else p.value
  if isSnan d then { causes := ivld, value := quiet d }
  else if isQnan d then { causes := FpCauses.none, value := d }
  else if isNan p.value then { causes := FpCauses.none, value := p.value }
  else if isDenormal d && !f.dn then { causes := uipl, value := signedZero false }
  else if p.causes.co then fmaOverflowed (flush d) addend
  else addCore f (flush d) addend

/-- Both steps: E1 with the check of Rdest when step 1 triggers, otherwise E1 with E2 (R350, R353). -/
def fmaOutcome (f : Fpsr) (sub : Bool) (d a b : Word) : FpOutcome :=
  let p := fmaStep1 f a b
  if f.triggers p.causes then { causes := p.causes.union (fmaPrecheck f d), value := p.value }
  else
    let q := fmaStep2 f sub d p
    { causes := p.causes.union q.causes, value := q.value }

/-- `FMADD Rdest,Rsrc1,Rsrc2` (R350). -/
def execFmadd (dest src1 src2 : Reg) (s : State) : Result :=
  s.fpEnd dest (fmaOutcome s.fpsr false (s.reg dest) (s.reg src1) (s.reg src2))

/-- `FMSUB Rdest,Rsrc1,Rsrc2` (R356). -/
def execFmsub (dest src1 src2 : Reg) (s : State) : Result :=
  s.fpEnd dest (fmaOutcome s.fpsr true (s.reg dest) (s.reg src1) (s.reg src2))

end Sys2Proof.Machine
end

