-- ==== Sys2Proof/Machine/FloatConvert.lean ====
section
/-! DEFINITION. Floating-point conversion and compare instructions (48_float_convert_compare.md R370 to R379). -/

namespace Sys2Proof.Machine

/-! ### Integer to float -/

/-- An integer as a single-precision number: 0 is +0 in every rounding mode (R370, R371). -/
def fromInt (f : Fpsr) (x : Int) : FpOutcome :=
  if x = 0 then { causes := FpCauses.none, value := 0 } else fpFinish f f.rm (decide (x < 0)) x.natAbs 1

/-- `ITOF Rdest,Rsrc` (R370): the integer is signed. -/
def execItof (dest src : Reg) (s : State) : Result :=
  s.fpEnd dest (fromInt s.fpsr (s.reg src).toInt)

/-- `UTOF Rdest,Rsrc` (R371): the integer is unsigned. -/
def execUtof (dest src : Reg) (s : State) : Result :=
  s.fpEnd dest (fromInt s.fpsr (s.reg src).toNat)

/-! ### Float to integer -/

/-- A number truncated toward zero. -/
def fpTrunc (x : Word) : Int := (fpVal x).tdiv (2 ^ 149)

/-- A conversion to the integers from `lo` to `hi`, tested after truncation (R372, R373, decision D20; log entry 25);
`low` and `high` stand for what does not fit, by sign. -/
def toInteger (f : Fpsr) (lo hi : Int) (low high : Word) (x : Word) : FpOutcome :=
  let invalid : FpOutcome := { causes := ivld, value := if fpSign x then low else high }
  if isNan x || isInfinite x then invalid
  else if isDenormal x then
    if f.dn then { causes := FpCauses.none, value := 0 } else { causes := uipl, value := signedZero false }
  else if fpTrunc x < lo || hi < fpTrunc x then invalid
  else
    { causes := if fpTrunc x * 2 ^ 149 = fpVal x then FpCauses.none else ixct, value := BitVec.ofInt 32 (fpTrunc x) }

/-- `FTOI Rdest,Rsrc` (R372). -/
def execFtoi (dest src : Reg) (s : State) : Result :=
  s.fpEnd dest (toInteger s.fpsr (-(2 ^ 31)) (2 ^ 31 - 1) 0x80000000 0x7FFFFFFF (s.reg src))

/-- `FTOS Rdest,Rsrc` (R373). -/
def execFtos (dest src : Reg) (s : State) : Result :=
  s.fpEnd dest (toInteger s.fpsr (-(2 ^ 15)) (2 ^ 15 - 1) 0xFFFF8000 0x00007FFF (s.reg src))

/-! ### Compare -/

/-- The relation of two operands that are no NaN (R375): an infinity stands above or below every finite value. -/
def fpOrder (a b : Word) : Ordering := compare (fpVal a) (fpVal b)

/-- The pattern of "Rsrc1 < Rsrc2": bits b1 to b31 are a draw (R377, U8; log entry 27). -/
def patternLess (n : Nat) (a b : Word) : Word := 1#1 ++ Config.fcmpLess n a b

/-- The pattern of "comparison invalid": bits b10 to b31 are a draw (R377, U8; log entry 27). -/
def patternUnordered (n : Nat) (a b : Word) : Word := (0#1 ++ 0x1FF#9) ++ Config.fcmpUnordered n a b

/-- The pattern of "Rsrc1 > Rsrc2": a draw from the words with b0 = 0 that are neither 0 nor of the pattern "comparison
invalid" (R377, U8; log entry 27). Those are the words 1 to 0x7FBFFFFF. -/
def patternGreater (n : Nat) (a b : Word) : Word := BitVec.ofNat 32 (1 + Config.fcmpGreater n a b % 0x7FBFFFFF)

/-- The pattern of a relation (R377). -/
def patternOf (n : Nat) (a b : Word) (o : Ordering) : Word :=
  match o with
  | .lt => patternLess n a b
  | .eq => 0
  | .gt => patternGreater n a b

/-- A compare: a NaN that `invalid` accepts is an invalid operation, another NaN only makes the comparison invalid, then
denormalized operands (R375, R376, decision D17; log entry 23). -/
def fpCompare (f : Fpsr) (n : Nat) (invalid : Word → Bool) (a b : Word) : FpOutcome :=
  if invalid a || invalid b then { causes := ivld, value := patternUnordered n a b }
  else if isNan a || isNan b then { causes := FpCauses.none, value := patternUnordered n a b }
  else if (isDenormal a || isDenormal b) && !f.dn then { causes := uipl, value := signedZero false }
  else { causes := FpCauses.none, value := patternOf n a b (fpOrder (flush a) (flush b)) }

/-- `FCMP Rdest,Rsrc1,Rsrc2` (R375): an SNaN is an invalid operation. -/
def execFcmp (dest src1 src2 : Reg) (s : State) : Result :=
  s.fpEnd dest (fpCompare s.fpsr s.drawIndex isSnan (s.reg src1) (s.reg src2))

/-- `FCMPE Rdest,Rsrc1,Rsrc2` (R376): any NaN is an invalid operation. -/
def execFcmpe (dest src1 src2 : Reg) (s : State) : Result :=
  s.fpEnd dest (fpCompare s.fpsr s.drawIndex isNan (s.reg src1) (s.reg src2))

end Sys2Proof.Machine
end

