-- ==== Sys2Proof/Machine/LoadStore.lean ====
section
/-! DEFINITION. Load and store instructions (40_load_store.md R140 to R164). -/

namespace Sys2Proof.Machine

/-! ### The shared shapes (R140) -/

/-- A load of `n` bytes at `a`, which `ok` says is aligned: one read, and the value to the register. -/
def State.loadTo (s : State) (ok : Bool) (a : Word) (n : Nat) (dest : Reg) (v : Word) (len : Word) : Result :=
  s.access ok a n ((s.afterLoad a n).writeBack dest v len)

/-- A store of `n` bytes at `a`, which `ok` says is aligned, that leaves the state `t`. -/
def State.storeAs (s : State) (ok : Bool) (a : Word) (n : Nat) (t : State) (len : Word) : Result :=
  s.access ok a n (.next (t.advance len))

/-! ### Loads -/

/-- `LD Rdest,@Rsrc` (R142). -/
def execLd (dest src : Reg) (s : State) : Result :=
  let a := s.eaIndirect src
  s.loadTo (aligned4 a) a 4 dest (s.load32 a) 2

/-- `LD Rdest,@Rsrc+` (R143): the update reads the register after the load wrote it (R141; log entry 20). -/
def execLdInc (dest src : Reg) (s : State) : Result :=
  let a := s.eaIndirect src
  let t := (s.afterLoad a 4).setReg dest (s.load32 a)
  s.access (aligned4 a) a 4 (t.writeBack src (t.reg src + 4) 2)

/-- `LD Rdest,@(disp16,Rsrc)` (R144). -/
def execLdDisp (dest : Reg) (disp16 : BitVec 16) (src : Reg) (s : State) : Result :=
  let a := s.eaDisp src disp16
  s.loadTo (aligned4 a) a 4 dest (s.load32 a) 4

/-- `LDB Rdest,@Rsrc` (R145). -/
def execLdb (dest src : Reg) (s : State) : Result :=
  s.loadTo true (s.eaIndirect src) 1 dest (sext (s.load8 (s.eaIndirect src))) 2

/-- `LDB Rdest,@(disp16,Rsrc)` (R146). -/
def execLdbDisp (dest : Reg) (disp16 : BitVec 16) (src : Reg) (s : State) : Result :=
  s.loadTo true (s.eaDisp src disp16) 1 dest (sext (s.load8 (s.eaDisp src disp16))) 4

/-- `LDUB Rdest,@Rsrc` (R147). -/
def execLdub (dest src : Reg) (s : State) : Result :=
  s.loadTo true (s.eaIndirect src) 1 dest (zext (s.load8 (s.eaIndirect src))) 2

/-- `LDUB Rdest,@(disp16,Rsrc)` (R148). -/
def execLdubDisp (dest : Reg) (disp16 : BitVec 16) (src : Reg) (s : State) : Result :=
  s.loadTo true (s.eaDisp src disp16) 1 dest (zext (s.load8 (s.eaDisp src disp16))) 4

/-- `LDH Rdest,@Rsrc` (R149). -/
def execLdh (dest src : Reg) (s : State) : Result :=
  let a := s.eaIndirect src
  s.loadTo (aligned2 a) a 2 dest (sext (s.load16 a)) 2

/-- `LDH Rdest,@(disp16,Rsrc)` (R150). -/
def execLdhDisp (dest : Reg) (disp16 : BitVec 16) (src : Reg) (s : State) : Result :=
  let a := s.eaDisp src disp16
  s.loadTo (aligned2 a) a 2 dest (sext (s.load16 a)) 4

/-- `LDUH Rdest,@Rsrc` (R151). -/
def execLduh (dest src : Reg) (s : State) : Result :=
  let a := s.eaIndirect src
  s.loadTo (aligned2 a) a 2 dest (zext (s.load16 a)) 2

/-- `LDUH Rdest,@(disp16,Rsrc)` (R152). -/
def execLduhDisp (dest : Reg) (disp16 : BitVec 16) (src : Reg) (s : State) : Result :=
  let a := s.eaDisp src disp16
  s.loadTo (aligned2 a) a 2 dest (zext (s.load16 a)) 4

/-- `LOCK Rdest,@Rsrc` (R153): the LOCK bit is set before the load, and not on AE (decision D25; log entry 19). -/
def execLock (dest src : Reg) (s : State) : Result :=
  let a := s.eaIndirect src
  s.access (aligned4 a) a 4 (({ s.afterLoad a 4 with lock := true } : State).writeBack dest (s.load32 a) 2)

/-! ### Stores -/

/-- `ST Rsrc1,@Rsrc2` (R154). -/
def execSt (src1 src2 : Reg) (s : State) : Result :=
  let a := s.eaIndirect src2
  s.storeAs (aligned4 a) a 4 (s.store32 a (s.reg src1)) 2

/-- `ST Rsrc1,@+Rsrc2` (R155): the stored value is read after the base is incremented (R141; log entry 20). -/
def execStPreInc (src1 src2 : Reg) (s : State) : Result :=
  let a := s.eaPreInc src2
  let t := s.setReg src2 a
  s.storeAs (aligned4 a) a 4 (t.store32 a (t.reg src1)) 2

/-- `ST Rsrc1,@-Rsrc2` (R156): the stored value is read after the base is decremented (R141; log entry 20). -/
def execStPreDec (src1 src2 : Reg) (s : State) : Result :=
  let a := s.eaPreDec src2
  let t := s.setReg src2 a
  s.storeAs (aligned4 a) a 4 (t.store32 a (t.reg src1)) 2

/-- `ST Rsrc1,@(disp16,Rsrc2)` (R157). -/
def execStDisp (src1 : Reg) (disp16 : BitVec 16) (src2 : Reg) (s : State) : Result :=
  let a := s.eaDisp src2 disp16
  s.storeAs (aligned4 a) a 4 (s.store32 a (s.reg src1)) 4

/-- `STB Rsrc1,@Rsrc2` (R158). -/
def execStb (src1 src2 : Reg) (s : State) : Result :=
  s.storeAs true (s.eaIndirect src2) 1 (s.store8 (s.eaIndirect src2) ((s.reg src1).extractLsb' 0 8)) 2

/-- `STB Rsrc1,@(disp16,Rsrc2)` (R159). -/
def execStbDisp (src1 : Reg) (disp16 : BitVec 16) (src2 : Reg) (s : State) : Result :=
  s.storeAs true (s.eaDisp src2 disp16) 1 (s.store8 (s.eaDisp src2 disp16) ((s.reg src1).extractLsb' 0 8)) 4

/-- `STH Rsrc1,@Rsrc2` (R160). -/
def execSth (src1 src2 : Reg) (s : State) : Result :=
  let a := s.eaIndirect src2
  s.storeAs (aligned2 a) a 2 (s.store16 a ((s.reg src1).extractLsb' 0 16)) 2

/-- `STH Rsrc1,@Rsrc2+` (R161): 2 is added after the store. -/
def execSthInc (src1 src2 : Reg) (s : State) : Result :=
  let a := s.eaIndirect src2
  s.storeAs (aligned2 a) a 2 ((s.store16 a ((s.reg src1).extractLsb' 0 16)).setReg src2 (a + 2)) 2

/-- `STH Rsrc1,@(disp16,Rsrc2)` (R162). -/
def execSthDisp (src1 : Reg) (disp16 : BitVec 16) (src2 : Reg) (s : State) : Result :=
  let a := s.eaDisp src2 disp16
  s.storeAs (aligned2 a) a 2 (s.store16 a ((s.reg src1).extractLsb' 0 16)) 4

/-- `UNLOCK Rsrc1,@Rsrc2` (R163): it stores only while the LOCK bit is 1, then clears it; the address is checked first, also
while the LOCK bit is 0, and AE leaves the bit as it is (decision D25; log entry 19). While the LOCK bit is 0 it makes no
access. -/
def execUnlock (src1 src2 : Reg) (s : State) : Result :=
  let a := s.eaIndirect src2
  if s.lock then s.storeAs (aligned4 a) a 4 { s.store32 a (s.reg src1) with lock := false } 2
  else if aligned4 a || !Config.unlockAEWhenClear then .next (({ s with lock := false } : State).advance 2)
  else .next (s.eitEntry .ae)

end Sys2Proof.Machine
end

