-- ==== Sys2Proof/Machine/MulDivShift.lean ====
section
/-! DEFINITION. Multiply, divide and shift instructions (43_muldiv_shift.md R220 to R236). -/

namespace Sys2Proof.Machine

/-! ### Multiply and divide -/

/-- `MUL Rdest,Rsrc` (R220): the accumulator is a draw afterwards (U7; log entry 29). -/
def execMul (dest src : Reg) (s : State) : Result :=
  ({ s with acc := Config.mulAcc s.drawIndex (s.reg dest) (s.reg src) } : State).writeBack dest
    (BitVec.ofInt 32 ((s.reg dest).toInt * (s.reg src).toInt)) 2

/-- The one signed division whose quotient does not fit: 0x80000000 by 0xFFFFFFFF (R225). -/
def divOverflows (a b : Word) : Bool := a = 0x80000000 && b = 0xFFFFFFFF

/-- `DIV Rdest,Rsrc` (R221): the quotient rounded toward zero; nothing when the divisor is 0; a draw in the overflowing case
(R225, U6; log entry 28). -/
def execDiv (dest src : Reg) (s : State) : Result :=
  if s.reg src = 0 then .next (s.advance 4)
  else if divOverflows (s.reg dest) (s.reg src) then s.writeBack dest (Config.divOverflow s.drawIndex) 4
  else s.writeBack dest (BitVec.ofInt 32 ((s.reg dest).toInt.tdiv (s.reg src).toInt)) 4

/-- `DIVU Rdest,Rsrc` (R222). -/
def execDivu (dest src : Reg) (s : State) : Result :=
  if s.reg src = 0 then .next (s.advance 4)
  else s.writeBack dest (BitVec.ofNat 32 ((s.reg dest).toNat / (s.reg src).toNat)) 4

/-- `REM Rdest,Rsrc` (R223): the remainder of the division rounded toward zero; a draw in the overflowing case (R225, U6; log
entry 28). -/
def execRem (dest src : Reg) (s : State) : Result :=
  if s.reg src = 0 then .next (s.advance 4)
  else if divOverflows (s.reg dest) (s.reg src) then s.writeBack dest (Config.remOverflow s.drawIndex) 4
  else s.writeBack dest (BitVec.ofInt 32 ((s.reg dest).toInt.tmod (s.reg src).toInt)) 4

/-- `REMU Rdest,Rsrc` (R224). -/
def execRemu (dest src : Reg) (s : State) : Result :=
  if s.reg src = 0 then .next (s.advance 4)
  else s.writeBack dest (BitVec.ofNat 32 ((s.reg dest).toNat % (s.reg src).toNat)) 4

/-! ### Shifts (R227) -/

/-- `SLL Rdest,Rsrc` (R228). -/
def execSll (dest src : Reg) (s : State) : Result :=
  s.writeBack dest (s.reg dest <<< shiftCount (s.reg src)) 2

/-- `SLL3 Rdest,Rsrc,#imm16` (R229). -/
def execSll3 (dest src : Reg) (imm16 : BitVec 16) (s : State) : Result :=
  s.writeBack dest (s.reg src <<< shiftCountImm imm16) 4

/-- `SLLI Rdest,#imm5` (R230). -/
def execSlli (dest : Reg) (imm5 : BitVec 5) (s : State) : Result :=
  s.writeBack dest (s.reg dest <<< imm5.toNat) 2

/-- `SRA Rdest,Rsrc` (R231). -/
def execSra (dest src : Reg) (s : State) : Result :=
  s.writeBack dest ((s.reg dest).sshiftRight (shiftCount (s.reg src))) 2

/-- `SRA3 Rdest,Rsrc,#imm16` (R232). -/
def execSra3 (dest src : Reg) (imm16 : BitVec 16) (s : State) : Result :=
  s.writeBack dest ((s.reg src).sshiftRight (shiftCountImm imm16)) 4

/-- `SRAI Rdest,#imm5` (R233). -/
def execSrai (dest : Reg) (imm5 : BitVec 5) (s : State) : Result :=
  s.writeBack dest ((s.reg dest).sshiftRight imm5.toNat) 2

/-- `SRL Rdest,Rsrc` (R234). -/
def execSrl (dest src : Reg) (s : State) : Result :=
  s.writeBack dest (s.reg dest >>> shiftCount (s.reg src)) 2

/-- `SRL3 Rdest,Rsrc,#imm16` (R235). -/
def execSrl3 (dest src : Reg) (imm16 : BitVec 16) (s : State) : Result :=
  s.writeBack dest (s.reg src >>> shiftCountImm imm16) 4

/-- `SRLI Rdest,#imm5` (R236). -/
def execSrli (dest : Reg) (imm5 : BitVec 5) (s : State) : Result :=
  s.writeBack dest (s.reg dest >>> imm5.toNat) 2

end Sys2Proof.Machine
end

