-- ==== Sys2Proof/Machine/Transfer.lean ====
section
/-! DEFINITION. Transfer instructions (41_transfer.md R180 to R187). -/

namespace Sys2Proof.Machine

/-- `LD24 Rdest,#imm24` (R180). -/
def execLd24 (dest : Reg) (imm24 : BitVec 24) (s : State) : Result :=
  s.writeBack dest (zext imm24) 4

/-- `LDI Rdest,#imm8` (R181). -/
def execLdi8 (dest : Reg) (imm8 : BitVec 8) (s : State) : Result :=
  s.writeBack dest (sext imm8) 2

/-- `LDI Rdest,#imm16` (R182). -/
def execLdi16 (dest : Reg) (imm16 : BitVec 16) (s : State) : Result :=
  s.writeBack dest (sext imm16) 4

/-- `MV Rdest,Rsrc` (R183). -/
def execMv (dest src : Reg) (s : State) : Result :=
  s.writeBack dest (s.reg src) 2

/-- `MVFC Rdest,CRsrc` (R184): a number that names no register is refused (decision D30; log entry 15). -/
def execMvfc (dest : Reg) (cr : CReg) (s : State) : Result :=
  match s.readCR cr with
  | some v => s.writeBack dest v 2
  | none => .refused (.noControlRegister cr)

/-- `MVTC Rsrc,CRdest` (R185): a number that names no register is refused (decision D30; log entry 15). -/
def execMvtc (src : Reg) (cr : CReg) (s : State) : Result :=
  match s.writeCR cr (s.reg src) with
  | some t => .next (t.advance 2)
  | none => .refused (.noControlRegister cr)

/-- `SETH Rdest,#imm16` (R186). -/
def execSeth (dest : Reg) (imm16 : BitVec 16) (s : State) : Result :=
  s.writeBack dest (highHalf imm16) 4

end Sys2Proof.Machine
end

