-- ==== Sys2Proof/Decode.lean ====
section
/-! DEFINITION. The decoder, total on any halfwords, and after it the encoder (30_encoding.md R100 to R119, R133). The bits of
an instruction are numbered from the least significant one, as in spec/opcode_table.json. -/

namespace Sys2Proof

/-! ### Fields (R107 to R110) -/

/-- h[15:12]. -/
def op1 (h : Half) : BitVec 4 := h.extractLsb' 12 4

/-- h[11:8]. -/
def r1 (h : Half) : BitVec 4 := h.extractLsb' 8 4

/-- h[7:4]. -/
def op2 (h : Half) : BitVec 4 := h.extractLsb' 4 4

/-- h[3:0]. -/
def r2 (h : Half) : BitVec 4 := h.extractLsb' 0 4

/-- h[7:0]: an 8-bit immediate or displacement. -/
def low8 (h : Half) : BitVec 8 := h.extractLsb' 0 8

/-- h[7:5]: the opcode of the immediate shifts. -/
def op3 (h : Half) : BitVec 3 := h.extractLsb' 5 3

/-- h[4:0]: the count of the immediate shifts. -/
def low5 (h : Half) : BitVec 5 := h.extractLsb' 0 5

/-- The three low bits of a field whose top bit must be 0: `bitpos` of BTST, BSET, BCLR. -/
def bitposOf (r : BitVec 4) : BitVec 3 := r.extractLsb' 0 3

/-- The 24 low-order bits of a 32-bit instruction with the halfwords `h` and `l`. -/
def low24 (h l : Half) : BitVec 24 := h.extractLsb' 0 8 ++ l

/-- The instruction `i` when its fixed field holds what it must (R133). -/
def onlyIf (c : Bool) (i : Instr) : Option Instr := if c then some i else none

/-! ### 16-bit instructions (R115, R118) -/

/-- Major opcode 0000. -/
def decode16Op0 (h : Half) : Option Instr :=
  match (op2 h).toNat with
  | 0x0 => some (.subv (r1 h) (r2 h))
  | 0x1 => some (.subx (r1 h) (r2 h))
  | 0x2 => some (.sub (r1 h) (r2 h))
  | 0x3 => some (.neg (r1 h) (r2 h))
  | 0x4 => some (.cmp (r1 h) (r2 h))
  | 0x5 => some (.cmpu (r1 h) (r2 h))
  | 0x8 => some (.addv (r1 h) (r2 h))
  | 0x9 => some (.addx (r1 h) (r2 h))
  | 0xA => some (.add (r1 h) (r2 h))
  | 0xB => some (.not (r1 h) (r2 h))
  | 0xC => some (.and (r1 h) (r2 h))
  | 0xD => some (.xor (r1 h) (r2 h))
  | 0xE => some (.or (r1 h) (r2 h))
  | 0xF => onlyIf (!(r1 h).msb) (.btst (bitposOf (r1 h)) (r2 h))
  | _ => none

/-- Major opcode 0001. -/
def decode16Op1 (h : Half) : Option Instr :=
  match (op2 h).toNat with
  | 0x0 => some (.srl (r1 h) (r2 h))
  | 0x2 => some (.sra (r1 h) (r2 h))
  | 0x4 => some (.sll (r1 h) (r2 h))
  | 0x6 => some (.mul (r1 h) (r2 h))
  | 0x8 => some (.mv (r1 h) (r2 h))
  | 0x9 => some (.mvfc (r1 h) (r2 h))
  | 0xA => some (.mvtc (r2 h) (r1 h))
  | 0xC =>
    match (r1 h).toNat with
    | 0xE => some (.jl (r2 h))
    | 0xF => some (.jmp (r2 h))
    | _ => none
  | 0xD => onlyIf (r1 h = 0 && r2 h = 6) .rte
  | 0xF => onlyIf (r1 h = 0) (.trap (r2 h))
  | _ => none

/-- Major opcode 0010. -/
def decode16Op2 (h : Half) : Option Instr :=
  match (op2 h).toNat with
  | 0x0 => some (.stb (r1 h) (r2 h))
  | 0x2 => some (.sth (r1 h) (r2 h))
  | 0x3 => some (.sthInc (r1 h) (r2 h))
  | 0x4 => some (.st (r1 h) (r2 h))
  | 0x5 => some (.unlock (r1 h) (r2 h))
  | 0x6 => some (.stPreInc (r1 h) (r2 h))
  | 0x7 => some (.stPreDec (r1 h) (r2 h))
  | 0x8 => some (.ldb (r1 h) (r2 h))
  | 0x9 => some (.ldub (r1 h) (r2 h))
  | 0xA => some (.ldh (r1 h) (r2 h))
  | 0xB => some (.lduh (r1 h) (r2 h))
  | 0xC => some (.ld (r1 h) (r2 h))
  | 0xD => some (.lock (r1 h) (r2 h))
  | 0xE => some (.ldInc (r1 h) (r2 h))
  | _ => none

/-- Major opcode 0011. -/
def decode16Op3 (h : Half) : Option Instr :=
  match (op2 h).toNat with
  | 0x0 => some (.mulhi (r1 h) (r2 h))
  | 0x1 => some (.mullo (r1 h) (r2 h))
  | 0x2 => some (.mulwhi (r1 h) (r2 h))
  | 0x3 => some (.mulwlo (r1 h) (r2 h))
  | 0x4 => some (.machi (r1 h) (r2 h))
  | 0x5 => some (.maclo (r1 h) (r2 h))
  | 0x6 => some (.macwhi (r1 h) (r2 h))
  | 0x7 => some (.macwlo (r1 h) (r2 h))
  | _ => none

/-- Major opcode 0101: the three immediate shifts, then the accumulator's instructions. -/
def decode16Op5 (h : Half) : Option Instr :=
  match (op3 h).toNat with
  | 0 => some (.srli (r1 h) (low5 h))
  | 1 => some (.srai (r1 h) (low5 h))
  | 2 => some (.slli (r1 h) (low5 h))
  | _ =>
    match (op2 h).toNat with
    | 0x7 =>
      match (r2 h).toNat with
      | 0 => some (.mvtachi (r1 h))
      | 1 => some (.mvtaclo (r1 h))
      | _ => none
    | 0x8 => onlyIf (r1 h = 0 && r2 h = 0) .rach
    | 0x9 => onlyIf (r1 h = 0 && r2 h = 0) .rac
    | 0xF =>
      match (r2 h).toNat with
      | 0 => some (.mvfachi (r1 h))
      | 1 => some (.mvfaclo (r1 h))
      | 2 => some (.mvfacmi (r1 h))
      | _ => none
    | _ => none

/-- Major opcode 0111. -/
def decode16Op7 (h : Half) : Option Instr :=
  match (r1 h).toNat with
  | 0x0 => onlyIf (low8 h = 0) .nop
  | 0x1 => some (.setpsw (low8 h))
  | 0x2 => some (.clrpsw (low8 h))
  | 0xC => some (.bc8 (low8 h))
  | 0xD => some (.bnc8 (low8 h))
  | 0xE => some (.bl8 (low8 h))
  | 0xF => some (.bra8 (low8 h))
  | _ => none

/-- A 16-bit instruction with its MSB clear (R115). -/
def decode16 (h : Half) : Option Instr :=
  match (op1 h).toNat with
  | 0x0 => decode16Op0 h
  | 0x1 => decode16Op1 h
  | 0x2 => decode16Op2 h
  | 0x3 => decode16Op3 h
  | 0x4 => some (.addi (r1 h) (low8 h))
  | 0x5 => decode16Op5 h
  | 0x6 => some (.ldi8 (r1 h) (low8 h))
  | 0x7 => decode16Op7 h
  | _ => none

/-! ### 32-bit instructions (R116, R117, R119) -/

/-- Major opcode 1000. -/
def decode32Op8 (h l : Half) : Option Instr :=
  match (op2 h).toNat with
  | 0x4 => onlyIf (r1 h = 0) (.cmpi (r2 h) l)
  | 0x5 => onlyIf (r1 h = 0) (.cmpui (r2 h) l)
  | 0x8 => some (.addv3 (r1 h) (r2 h) l)
  | 0xA => some (.add3 (r1 h) (r2 h) l)
  | 0xC => some (.and3 (r1 h) (r2 h) l)
  | 0xD => some (.xor3 (r1 h) (r2 h) l)
  | 0xE => some (.or3 (r1 h) (r2 h) l)
  | _ => none

/-- Major opcode 1001. -/
def decode32Op9 (h l : Half) : Option Instr :=
  match (op2 h).toNat with
  | 0x0 => onlyIf (l = 0) (.div (r1 h) (r2 h))
  | 0x1 => onlyIf (l = 0) (.divu (r1 h) (r2 h))
  | 0x2 => onlyIf (l = 0) (.rem (r1 h) (r2 h))
  | 0x3 => onlyIf (l = 0) (.remu (r1 h) (r2 h))
  | 0x8 => some (.srl3 (r1 h) (r2 h) l)
  | 0xA => some (.sra3 (r1 h) (r2 h) l)
  | 0xC => some (.sll3 (r1 h) (r2 h) l)
  | 0xF => onlyIf (r2 h = 0) (.ldi16 (r1 h) l)
  | _ => none

/-- Major opcode 1010. -/
def decode32OpA (h l : Half) : Option Instr :=
  match (op2 h).toNat with
  | 0x0 => some (.stbDisp (r1 h) l (r2 h))
  | 0x2 => some (.sthDisp (r1 h) l (r2 h))
  | 0x4 => some (.stDisp (r1 h) l (r2 h))
  | 0x6 => onlyIf (!(r1 h).msb) (.bset (bitposOf (r1 h)) l (r2 h))
  | 0x7 => onlyIf (!(r1 h).msb) (.bclr (bitposOf (r1 h)) l (r2 h))
  | 0x8 => some (.ldbDisp (r1 h) l (r2 h))
  | 0x9 => some (.ldubDisp (r1 h) l (r2 h))
  | 0xA => some (.ldhDisp (r1 h) l (r2 h))
  | 0xB => some (.lduhDisp (r1 h) l (r2 h))
  | 0xC => some (.ldDisp (r1 h) l (r2 h))
  | _ => none

/-- Major opcode 1011. -/
def decode32OpB (h l : Half) : Option Instr :=
  match (op2 h).toNat with
  | 0x0 => some (.beq (r1 h) (r2 h) l)
  | 0x1 => some (.bne (r1 h) (r2 h) l)
  | 0x8 => onlyIf (r1 h = 0) (.beqz (r2 h) l)
  | 0x9 => onlyIf (r1 h = 0) (.bnez (r2 h) l)
  | 0xA => onlyIf (r1 h = 0) (.bltz (r2 h) l)
  | 0xB => onlyIf (r1 h = 0) (.bgez (r2 h) l)
  | 0xC => onlyIf (r1 h = 0) (.blez (r2 h) l)
  | 0xD => onlyIf (r1 h = 0) (.bgtz (r2 h) l)
  | _ => none

/-- The FPU extended instructions: 1101 with op2 0000. The low halfword's fields are fop1, dest, fop2 and four zeros. -/
def decode32Fpu (h l : Half) : Option Instr :=
  match (op1 l).toNat with
  | 0x0 =>
    match (op2 l).toNat with
    | 0x0 => onlyIf (r2 l = 0) (.fadd (r1 l) (r1 h) (r2 h))
    | 0x4 => onlyIf (r2 l = 0) (.fsub (r1 l) (r1 h) (r2 h))
    | 0xC => onlyIf (r2 l = 0) (.fcmp (r1 l) (r1 h) (r2 h))
    | 0xD => onlyIf (r2 l = 0) (.fcmpe (r1 l) (r1 h) (r2 h))
    | _ => none
  | 0x1 => onlyIf (low8 l = 0) (.fmul (r1 l) (r1 h) (r2 h))
  | 0x2 => onlyIf (low8 l = 0) (.fdiv (r1 l) (r1 h) (r2 h))
  | 0x3 =>
    match (op2 l).toNat with
    | 0x0 => onlyIf (r2 l = 0) (.fmadd (r1 l) (r1 h) (r2 h))
    | 0x4 => onlyIf (r2 l = 0) (.fmsub (r1 l) (r1 h) (r2 h))
    | _ => none
  | 0x4 =>
    match (op2 l).toNat with
    | 0x0 => onlyIf (r2 l = 0 && r2 h = 0) (.itof (r1 l) (r1 h))
    | 0x4 => onlyIf (r2 l = 0 && r2 h = 0) (.utof (r1 l) (r1 h))
    | 0x8 => onlyIf (r2 l = 0 && r2 h = 0) (.ftoi (r1 l) (r1 h))
    | 0xC => onlyIf (r2 l = 0 && r2 h = 0) (.ftos (r1 l) (r1 h))
    | _ => none
  | _ => none

/-- Major opcode 1101. -/
def decode32OpD (h l : Half) : Option Instr :=
  match (op2 h).toNat with
  | 0x0 => decode32Fpu h l
  | 0xC => onlyIf (r2 h = 0) (.seth (r1 h) l)
  | _ => none

/-- Major opcode 1111. -/
def decode32OpF (h l : Half) : Option Instr :=
  match (r1 h).toNat with
  | 0xC => some (.bc24 (low24 h l))
  | 0xD => some (.bnc24 (low24 h l))
  | 0xE => some (.bl24 (low24 h l))
  | 0xF => some (.bra24 (low24 h l))
  | _ => none

/-- A 32-bit instruction with the high-order halfword `h` and the low-order halfword `l` (R116, R117). -/
def decode32 (h l : Half) : Option Instr :=
  match (op1 h).toNat with
  | 0x8 => decode32Op8 h l
  | 0x9 => decode32Op9 h l
  | 0xA => decode32OpA h l
  | 0xB => decode32OpB h l
  | 0xD => decode32OpD h l
  | 0xE => some (.ld24 (r1 h) (low24 h l))
  | 0xF => decode32OpF h l
  | _ => none

/-! ### The decode procedure (R101 to R103, R131) -/

/-- Why the decoder rejects. -/
inductive DecodeReject where
  /-- A 16-bit pattern of rule R118. -/
  | unassigned16
  /-- A 32-bit pattern of rule R119. -/
  | unassigned32
  /-- An instruction B with its MSB set that is not 0xF000 (R103). -/
  | parallelNotNop
  deriving DecidableEq, Repr

/-- What the decoder answers: an instruction, or a rejection by name. -/
inductive DecodeResult where
  /-- The bits are this instruction. -/
  | instr (i : Instr)
  /-- The bits are no instruction of this CPU. -/
  | rejected (why : DecodeReject)
  deriving DecidableEq, Repr

/-- The decoder's answer, with the rejection that stands for no row. -/
def orReject (o : Option Instr) (why : DecodeReject) : DecodeResult :=
  match o with
  | some i => .instr i
  | none => .rejected why

/-- The decoding at a word boundary (R101): the MSB of the first halfword tells the length. -/
def decodeHigh (h l : Half) : DecodeResult :=
  if h.msb then orReject (decode32 h l) .unassigned32 else orReject (decode16 h) .unassigned16

/-- The decoding of an instruction B (R101 to R103): its MSB is the parallel flag, which only NOP may set. -/
def decodeLow (h : Half) : DecodeResult :=
  if h.msb then (if h = 0xF000 then .instr .nopPar else .rejected .parallelNotNop)
  else orReject (decode16 h) .unassigned16

/-- The instruction of a decoder's answer, if there is one. -/
def instrOf (r : DecodeResult) : Option Instr :=
  match r with
  | .instr i => some i
  | .rejected _ => none

/-- The instruction whose bits are `w`, as spec/opcode_table.json numbers them: a 16-bit row with its MSB set is an
instruction B, any other row begins a word. -/
def decodeTableWord (nbits w : Nat) : Option Instr :=
  if nbits ≤ 16 then
    let h := BitVec.ofNat 16 w
    if h.msb then instrOf (decodeLow h) else instrOf (decodeHigh h 0)
  else
    let x := BitVec.ofNat 32 w
    instrOf (decodeHigh (x.extractLsb' 16 16) (x.extractLsb' 0 16))

/-! ### The encoder (R108, R109, R115 to R117) -/

/-- The bits of an instruction: a halfword, or a word as its high-order and its low-order halfword. -/
inductive Code where
  /-- A 16-bit instruction. -/
  | half (h : Half)
  /-- A 32-bit instruction. -/
  | word (h l : Half)
  deriving DecidableEq, Repr

/-- The formats RR16, ACC16, J16, T16, BT16, Z16: four fields of four bits. -/
def rr16 (o1 a o2 b : BitVec 4) : Half := (o1 ++ a) ++ (o2 ++ b)

/-- The formats RI8, B8, PSW8. -/
def ri8 (o1 a : BitVec 4) (imm : BitVec 8) : Half := (o1 ++ a) ++ imm

/-- The format RI5. -/
def ri5 (o1 a : BitVec 4) (o3 : BitVec 3) (imm : BitVec 5) : Half := (o1 ++ a) ++ (o3 ++ imm)

/-- The formats RRI32, RI32a, RI32b, RR32, BIT32. -/
def rri32 (o1 a o2 b : BitVec 4) (imm : BitVec 16) : Code := .word (rr16 o1 a o2 b) imm

/-- The formats I24, B24. -/
def i24 (o1 a : BitVec 4) (imm : BitVec 24) : Code := .word (ri8 o1 a (imm.extractLsb' 16 8)) (imm.extractLsb' 0 16)

/-- The formats FP3, FP2. -/
def fp32 (a b f1 d f2 : BitVec 4) : Code := .word (rr16 0xD a 0x0 b) (rr16 f1 d f2 0x0)

/-- The bits of an instruction (R115 to R117, R102). -/
def encode (i : Instr) : Code :=
  match i with
  | .subv dest src => .half (rr16 0x0 dest 0x0 src)
  | .addv dest src => .half (rr16 0x0 dest 0x8 src)
  | .subx dest src => .half (rr16 0x0 dest 0x1 src)
  | .addx dest src => .half (rr16 0x0 dest 0x9 src)
  | .sub dest src => .half (rr16 0x0 dest 0x2 src)
  | .add dest src => .half (rr16 0x0 dest 0xA src)
  | .neg dest src => .half (rr16 0x0 dest 0x3 src)
  | .not dest src => .half (rr16 0x0 dest 0xB src)
  | .cmp src1 src2 => .half (rr16 0x0 src1 0x4 src2)
  | .and dest src => .half (rr16 0x0 dest 0xC src)
  | .cmpu src1 src2 => .half (rr16 0x0 src1 0x5 src2)
  | .xor dest src => .half (rr16 0x0 dest 0xD src)
  | .btst bitpos src => .half (rr16 0x0 (0#1 ++ bitpos) 0xF src)
  | .or dest src => .half (rr16 0x0 dest 0xE src)
  | .srl dest src => .half (rr16 0x1 dest 0x0 src)
  | .mv dest src => .half (rr16 0x1 dest 0x8 src)
  | .sra dest src => .half (rr16 0x1 dest 0x2 src)
  | .mvfc dest cr => .half (rr16 0x1 dest 0x9 cr)
  | .sll dest src => .half (rr16 0x1 dest 0x4 src)
  | .mvtc src cr => .half (rr16 0x1 cr 0xA src)
  | .mul dest src => .half (rr16 0x1 dest 0x6 src)
  | .jl src => .half (rr16 0x1 0xE 0xC src)
  | .rte => .half (rr16 0x1 0x0 0xD 0x6)
  | .jmp src => .half (rr16 0x1 0xF 0xC src)
  | .trap imm4 => .half (rr16 0x1 0x0 0xF imm4)
  | .stb src1 src2 => .half (rr16 0x2 src1 0x0 src2)
  | .ldb dest src => .half (rr16 0x2 dest 0x8 src)
  | .sth src1 src2 => .half (rr16 0x2 src1 0x2 src2)
  | .ldub dest src => .half (rr16 0x2 dest 0x9 src)
  | .sthInc src1 src2 => .half (rr16 0x2 src1 0x3 src2)
  | .ldh dest src => .half (rr16 0x2 dest 0xA src)
  | .st src1 src2 => .half (rr16 0x2 src1 0x4 src2)
  | .lduh dest src => .half (rr16 0x2 dest 0xB src)
  | .unlock src1 src2 => .half (rr16 0x2 src1 0x5 src2)
  | .ld dest src => .half (rr16 0x2 dest 0xC src)
  | .stPreInc src1 src2 => .half (rr16 0x2 src1 0x6 src2)
  | .lock dest src => .half (rr16 0x2 dest 0xD src)
  | .stPreDec src1 src2 => .half (rr16 0x2 src1 0x7 src2)
  | .ldInc dest src => .half (rr16 0x2 dest 0xE src)
  | .mulhi src1 src2 => .half (rr16 0x3 src1 0x0 src2)
  | .machi src1 src2 => .half (rr16 0x3 src1 0x4 src2)
  | .mullo src1 src2 => .half (rr16 0x3 src1 0x1 src2)
  | .maclo src1 src2 => .half (rr16 0x3 src1 0x5 src2)
  | .mulwhi src1 src2 => .half (rr16 0x3 src1 0x2 src2)
  | .macwhi src1 src2 => .half (rr16 0x3 src1 0x6 src2)
  | .mulwlo src1 src2 => .half (rr16 0x3 src1 0x3 src2)
  | .macwlo src1 src2 => .half (rr16 0x3 src1 0x7 src2)
  | .addi dest imm8 => .half (ri8 0x4 dest imm8)
  | .ldi8 dest imm8 => .half (ri8 0x6 dest imm8)
  | .srli dest imm5 => .half (ri5 0x5 dest 0x0 imm5)
  | .mvtachi src => .half (rr16 0x5 src 0x7 0x0)
  | .srai dest imm5 => .half (ri5 0x5 dest 0x1 imm5)
  | .mvtaclo src => .half (rr16 0x5 src 0x7 0x1)
  | .slli dest imm5 => .half (ri5 0x5 dest 0x2 imm5)
  | .mvfachi dest => .half (rr16 0x5 dest 0xF 0x0)
  | .rach => .half (rr16 0x5 0x0 0x8 0x0)
  | .mvfaclo dest => .half (rr16 0x5 dest 0xF 0x1)
  | .rac => .half (rr16 0x5 0x0 0x9 0x0)
  | .mvfacmi dest => .half (rr16 0x5 dest 0xF 0x2)
  | .nop => .half (rr16 0x7 0x0 0x0 0x0)
  | .bc8 pcdisp8 => .half (ri8 0x7 0xC pcdisp8)
  | .setpsw imm8 => .half (ri8 0x7 0x1 imm8)
  | .bnc8 pcdisp8 => .half (ri8 0x7 0xD pcdisp8)
  | .clrpsw imm8 => .half (ri8 0x7 0x2 imm8)
  | .bl8 pcdisp8 => .half (ri8 0x7 0xE pcdisp8)
  | .bra8 pcdisp8 => .half (ri8 0x7 0xF pcdisp8)
  | .cmpi src imm16 => rri32 0x8 0x0 0x4 src imm16
  | .cmpui src imm16 => rri32 0x8 0x0 0x5 src imm16
  | .addv3 dest src imm16 => rri32 0x8 dest 0x8 src imm16
  | .add3 dest src imm16 => rri32 0x8 dest 0xA src imm16
  | .and3 dest src imm16 => rri32 0x8 dest 0xC src imm16
  | .xor3 dest src imm16 => rri32 0x8 dest 0xD src imm16
  | .or3 dest src imm16 => rri32 0x8 dest 0xE src imm16
  | .div dest src => rri32 0x9 dest 0x0 src 0
  | .divu dest src => rri32 0x9 dest 0x1 src 0
  | .rem dest src => rri32 0x9 dest 0x2 src 0
  | .remu dest src => rri32 0x9 dest 0x3 src 0
  | .srl3 dest src imm16 => rri32 0x9 dest 0x8 src imm16
  | .sra3 dest src imm16 => rri32 0x9 dest 0xA src imm16
  | .sll3 dest src imm16 => rri32 0x9 dest 0xC src imm16
  | .ldi16 dest imm16 => rri32 0x9 dest 0xF 0x0 imm16
  | .stbDisp src1 disp16 src2 => rri32 0xA src1 0x0 src2 disp16
  | .sthDisp src1 disp16 src2 => rri32 0xA src1 0x2 src2 disp16
  | .stDisp src1 disp16 src2 => rri32 0xA src1 0x4 src2 disp16
  | .bset bitpos disp16 src => rri32 0xA (0#1 ++ bitpos) 0x6 src disp16
  | .bclr bitpos disp16 src => rri32 0xA (0#1 ++ bitpos) 0x7 src disp16
  | .ldbDisp dest disp16 src => rri32 0xA dest 0x8 src disp16
  | .ldubDisp dest disp16 src => rri32 0xA dest 0x9 src disp16
  | .ldhDisp dest disp16 src => rri32 0xA dest 0xA src disp16
  | .lduhDisp dest disp16 src => rri32 0xA dest 0xB src disp16
  | .ldDisp dest disp16 src => rri32 0xA dest 0xC src disp16
  | .beq src1 src2 pcdisp16 => rri32 0xB src1 0x0 src2 pcdisp16
  | .bne src1 src2 pcdisp16 => rri32 0xB src1 0x1 src2 pcdisp16
  | .beqz src pcdisp16 => rri32 0xB 0x0 0x8 src pcdisp16
  | .bnez src pcdisp16 => rri32 0xB 0x0 0x9 src pcdisp16
  | .bltz src pcdisp16 => rri32 0xB 0x0 0xA src pcdisp16
  | .bgez src pcdisp16 => rri32 0xB 0x0 0xB src pcdisp16
  | .blez src pcdisp16 => rri32 0xB 0x0 0xC src pcdisp16
  | .bgtz src pcdisp16 => rri32 0xB 0x0 0xD src pcdisp16
  | .seth dest imm16 => rri32 0xD dest 0xC 0x0 imm16
  | .fadd dest src1 src2 => fp32 src1 src2 0x0 dest 0x0
  | .fsub dest src1 src2 => fp32 src1 src2 0x0 dest 0x4
  | .fcmp dest src1 src2 => fp32 src1 src2 0x0 dest 0xC
  | .fcmpe dest src1 src2 => fp32 src1 src2 0x0 dest 0xD
  | .fmul dest src1 src2 => fp32 src1 src2 0x1 dest 0x0
  | .fdiv dest src1 src2 => fp32 src1 src2 0x2 dest 0x0
  | .fmadd dest src1 src2 => fp32 src1 src2 0x3 dest 0x0
  | .fmsub dest src1 src2 => fp32 src1 src2 0x3 dest 0x4
  | .itof dest src => fp32 src 0x0 0x4 dest 0x0
  | .utof dest src => fp32 src 0x0 0x4 dest 0x4
  | .ftoi dest src => fp32 src 0x0 0x4 dest 0x8
  | .ftos dest src => fp32 src 0x0 0x4 dest 0xC
  | .bc24 pcdisp24 => i24 0xF 0xC pcdisp24
  | .bnc24 pcdisp24 => i24 0xF 0xD pcdisp24
  | .bl24 pcdisp24 => i24 0xF 0xE pcdisp24
  | .bra24 pcdisp24 => i24 0xF 0xF pcdisp24
  | .ld24 dest imm24 => i24 0xE dest imm24
  | .nopPar => .half (rr16 0xF 0x0 0x0 0x0)
end Sys2Proof
end

