-- ==== Sys2Proof/Machine/Fetch.lean ====
section
/-! DEFINITION. Fetching and decoding the instruction at the program counter (30_encoding.md R101, R106, 20_memory.md R87). -/

namespace Sys2Proof.Machine

/-- What a fetch of one byte sees (20_memory.md R87, U10; log entry 31): the memory's byte, or, where the newest store to it
may have come after it was fetched ahead, as a draw decides, the byte before that store. -/
def queueView (draw : Nat) (addr : Nat) : List QueuedStore → Byte → Byte
  | [], current => current
  | q :: older, current =>
    if q.addr = addr then
      if decide (q.dist < Config.iqDepth) && Config.queueKeepsOld draw addr older.length then queueView draw addr older q.old
      else current
    else queueView draw addr older current

/-- The byte an instruction fetch reads: memory's, as the queue shows it, or a device's answer (20_memory.md R78, R80; log
entry 39). No step runs what it fetched from an absent address. -/
def State.fetch8 (s : State) (a : Word) : Byte :=
  match s.backing a with
  | .ram => queueView s.drawIndex a.toNat s.queue (Memory.read s.mem a.toNat)
  | .device d => Config.deviceFetch s.drawIndex d s.devLog a.toNat
  | .absent => Memory.unlisted

/-- The halfword an instruction fetch reads, big-endian (20_memory.md R71, R72). -/
def State.fetch16 (s : State) (a : Word) : Half := s.fetch8 a ++ s.fetch8 (a + 1)

/-- The decoding at an even program counter (30_encoding.md R101): at a word boundary an instruction A or a 32-bit
instruction, at the other halfword an instruction B. -/
def State.decodeAt (s : State) : DecodeResult :=
  if aligned4 s.pc then decodeHigh (s.fetch16 s.pc) (s.fetch16 (s.pc + 2)) else decodeLow (s.fetch16 s.pc)

/-- The platform backs the instruction at the program counter: four bytes at a word boundary where the MSB of the first is 1
(30_encoding.md R101), otherwise two (20_memory.md R80, decision D29). -/
def State.fetchBacked (s : State) : Bool :=
  s.backed s.pc (if aligned4 s.pc && (s.fetch8 s.pc).msb then 4 else 2)

/-- The refusal of a halfword or word that the decoder rejects (30_encoding.md R103, R131; log entry 14). -/
def refusalOf : DecodeReject → Refusal
  | .unassigned16 => .unassignedEncoding16
  | .unassigned32 => .unassignedEncoding32
  | .parallelNotNop => .parallelNotNop

/-- A halfword placed in memory at an address, most significant byte first. -/
def placeHalf (m : Memory) (a : Word) (h : Half) : Memory :=
  Memory.write (Memory.write m a.toNat (h.extractLsb' 8 8)) (a + 1).toNat (h.extractLsb' 0 8)

/-- The map with plain memory at the word that holds `a`: the map itself where it has that already. -/
def State.memMapWithRam (s : State) (a : Word) : MemMap :=
  if s.ramAt (wordAlign a) 4 then s.memMap else { base := (wordAlign a).toNat, size := 4, backing := .ram } :: s.memMap

/-- A state whose next instruction lies at `a` in `m`: plain memory is there, no store is in the instruction queue, no reset or
interrupt is requested. -/
def State.atInstruction (s : State) (a : Word) (m : Memory) : State :=
  { s with pc := a, mem := m, memMap := s.memMapWithRam a, queue := [], extInt := false, resetReq := false }

end Sys2Proof.Machine
end

