-- ==== Sys2Proof/Machine/Step.lean ====
section
/-! DEFINITION. One step of the machine (30_encoding.md R106). -/

namespace Sys2Proof.Machine

/-- The next draw has its own number after every step. -/
def tickResult (r : Result) : Result :=
  match r with
  | .next t => .next t.tick
  | .fault e => .fault e
  | .refused e => .refused e

/-- One step (R106, 60_exceptions.md R409, decision D5; log entry 13): reset before everything, then an accepted external
interrupt, then the instruction at the program counter, where the platform backs it (20_memory.md R80; log entry 8). -/
def step (s : State) : Host.Outcome State Fault Refusal :=
  if s.resetReq then .next s.takeReset.tick
  else if s.interruptAccepted then .next (s.eitEntry .ei).tick
  else if s.pc.getLsbD 0 then .fault .oddProgramCounter
  else if !s.fetchBacked then .refused (.unbackedAddress s.pc)
  else
    match s.decodeAt with
    | .rejected why => .refused (refusalOf why)
    | .instr i => tickResult (exec i s)

/-- The instruction whose bits are `w`, stored where the next step fetches it: a 32-bit instruction and an instruction A at
the word that holds the program counter, an instruction B (a 16-bit row with its MSB set) in that word's low-order
halfword (log entry 34). -/
def State.withFetchWord (s : State) (nbits w : Nat) : State :=
  let a := wordAlign s.pc
  if nbits ≤ 16 then
    let h := BitVec.ofNat 16 w
    if h.msb then s.atInstruction (a + 2) (placeHalf s.mem (a + 2) h)
    else s.atInstruction a (placeHalf (placeHalf s.mem a h) (a + 2) 0)
  else
    let x := BitVec.ofNat 32 w
    s.atInstruction a (placeHalf (placeHalf s.mem a (x.extractLsb' 16 16)) (a + 2) (x.extractLsb' 0 16))

end Sys2Proof.Machine
end

