-- ==== Sys2Proof/Safety.lean ====
section
/-! DEFINITION. The terms in which the machine's statements are written: what every state of a run keeps, what an instruction
leaves unchanged, and what it is for an instruction to complete. -/

namespace Sys2Proof.Machine

/-! ### The invariant of a run -/

/-- The memory is in its canonical form, and bit 0 of the PC and of BPC is 0 (10_state.md R45, R34). -/
def State.Inv (s : State) : Prop :=
  Memory.wf s.mem = true ∧ s.pc.getLsbD 0 = false ∧ s.bpc.getLsbD 0 = false

/-- The next instruction is a low-order halfword, instruction B (30_encoding.md R100). -/
def State.atLowHalf (s : State) : Prop := s.pc.extractLsb' 0 2 = 2

/-! ### Frames -/

/-- The pieces of state that are no general register. -/
inductive Part where
  /-- The condition bit. -/
  | c
  /-- SM and IE. -/
  | smIe
  /-- BSM, BIE, BC. -/
  | backup
  /-- BPC. -/
  | bpc
  /-- FPSR. -/
  | fpsr
  /-- The accumulator. -/
  | acc
  /-- The LOCK bit. -/
  | lock
  /-- Memory. -/
  | mem
  /-- The accesses that devices saw. -/
  | devices
  deriving DecidableEq, Repr

/-- Every piece of state but the listed ones is the same in both states: of memory, every byte as a read gives it. The
platform's address map and its two inputs are never an instruction's to change. -/
def KeepsBut (parts : List Part) (s t : State) : Prop :=
  (.c ∉ parts → t.psw.c = s.psw.c) ∧
  (.smIe ∉ parts → t.psw.sm = s.psw.sm ∧ t.psw.ie = s.psw.ie) ∧
  (.backup ∉ parts → t.psw.bsm = s.psw.bsm ∧ t.psw.bie = s.psw.bie ∧ t.psw.bc = s.psw.bc) ∧
  (.bpc ∉ parts → t.bpc = s.bpc) ∧
  (.fpsr ∉ parts → t.fpsr = s.fpsr) ∧
  (.acc ∉ parts → t.acc = s.acc) ∧
  (.lock ∉ parts → t.lock = s.lock) ∧
  (.mem ∉ parts → ∀ k : Nat, Memory.read t.mem k = Memory.read s.mem k) ∧
  (.devices ∉ parts → t.devLog = s.devLog) ∧
  t.memMap = s.memMap ∧ t.extInt = s.extInt ∧ t.resetReq = s.resetReq

/-- Every general register but the listed ones reads as before, and so does the stack pointer that R15 does not name
(10_state.md R22). -/
def RegsKeptBut (regs : List Reg) (s t : State) : Prop :=
  (∀ r : Reg, r ∉ regs → t.reg r = s.reg r) ∧
  (s.psw.sm = false → t.spu = s.spu) ∧ (s.psw.sm = true → t.spi = s.spi)

/-- R0 to R14, SPI and SPU hold what they held: the frame of an instruction that may change SM, and with it what R15 names. -/
def BanksKept (s t : State) : Prop := t.gpr = s.gpr ∧ t.spi = s.spi ∧ t.spu = s.spu

/-- Every byte of memory but the `n` from address `a` on (modulo 2^32) reads as before. -/
def MemKeptBut (a : Word) (n : Nat) (s t : State) : Prop :=
  ∀ k : Nat, (∀ j : Nat, j < n → k ≠ (a + BitVec.ofNat 32 j).toNat) → Memory.read t.mem k = Memory.read s.mem k

/-- The byte that memory holds at an address. -/
def byteAt (s : State) (a : Word) : Byte := Memory.read s.mem a.toNat

/-! ### Completion -/

/-- The instruction answers a next state, and that state is as `P` says. -/
def Completes (i : Instr) (s : State) (P : State → Prop) : Prop := ∃ t : State, exec i s = .next t ∧ P t

/-- The instruction puts `v` into `dest`, may change the listed pieces of state, and goes on `len` bytes further. -/
def WritesReg (i : Instr) (s : State) (dest : Reg) (v : Word) (len : Word) (parts : List Part := []) : Prop :=
  Completes i s fun t => t.reg dest = v ∧ RegsKeptBut [dest] s t ∧ KeepsBut parts s t ∧ t.pc = s.pc + len

/-- The instruction puts `v` into `dest`, `c` into the condition bit, and goes on `len` bytes further. -/
def WritesRegAndC (i : Instr) (s : State) (dest : Reg) (v : Word) (c : Bool) (len : Word) : Prop :=
  Completes i s fun t =>
    t.reg dest = v ∧ t.psw.c = c ∧ RegsKeptBut [dest] s t ∧ KeepsBut [.c] s t ∧ t.pc = s.pc + len

/-- The instruction puts `c` into the condition bit, and goes on `len` bytes further. -/
def WritesC (i : Instr) (s : State) (c : Bool) (len : Word) : Prop :=
  Completes i s fun t => t.psw.c = c ∧ RegsKeptBut [] s t ∧ KeepsBut [.c] s t ∧ t.pc = s.pc + len

/-- The instruction stores `bytes` at `a` and the addresses after it (modulo 2^32), changes no other byte, and goes on `len`
bytes further; `base` is the register its addressing mode updates, with its new value, if it has one. -/
def StoresBytes (i : Instr) (s : State) (a : Word) (bytes : List Byte) (base : Option (Reg × Word)) (len : Word) : Prop :=
  Completes i s fun t =>
    (∀ (j : Nat) (b : Byte), bytes[j]? = some b → byteAt t (a + BitVec.ofNat 32 j) = b) ∧
    MemKeptBut a bytes.length s t ∧
    (∀ (r : Reg) (v : Word), base = some (r, v) → t.reg r = v) ∧
    RegsKeptBut (base.elim [] fun p => [p.1]) s t ∧ KeepsBut [.mem] s t ∧ t.pc = s.pc + len

/-- The instruction only goes to `target`. -/
def GoesTo (i : Instr) (s : State) (target : Word) : Prop :=
  Completes i s fun t => RegsKeptBut [] s t ∧ KeepsBut [] s t ∧ t.pc = target

/-! ### Data accesses -/

/-- The data access of an instruction: its address, how many bytes it moves, and the accesses it makes of them, the newest
first: none for a read, the value for a write (20_memory.md R74, R76, R78). An instruction with none makes no access; UNLOCK
makes its own only while the LOCK bit is 1 (40_load_store.md R163). -/
def dataAccess (i : Instr) (s : State) : Option (Word × Nat × List (Option Word)) :=
  match i with
  | .ldb _ b | .ldub _ b => some (s.reg b, 1, [none])
  | .ldh _ b | .lduh _ b => some (s.reg b, 2, [none])
  | .ld _ b | .ldInc _ b | .lock _ b => some (s.reg b, 4, [none])
  | .ldbDisp _ x b | .ldubDisp _ x b => some (s.reg b + x.signExtend 32, 1, [none])
  | .ldhDisp _ x b | .lduhDisp _ x b => some (s.reg b + x.signExtend 32, 2, [none])
  | .ldDisp _ x b => some (s.reg b + x.signExtend 32, 4, [none])
  | .stb r b => some (s.reg b, 1, [some (s.reg r &&& 0xFF)])
  | .stbDisp r x b => some (s.reg b + x.signExtend 32, 1, [some (s.reg r &&& 0xFF)])
  | .sth r b | .sthInc r b => some (s.reg b, 2, [some (s.reg r &&& 0xFFFF)])
  | .sthDisp r x b => some (s.reg b + x.signExtend 32, 2, [some (s.reg r &&& 0xFFFF)])
  | .st r b => some (s.reg b, 4, [some (s.reg r)])
  | .stDisp r x b => some (s.reg b + x.signExtend 32, 4, [some (s.reg r)])
  | .stPreInc r b => some (s.reg b + 4, 4, [some (if r = b then s.reg b + 4 else s.reg r)])
  | .stPreDec r b => some (s.reg b - 4, 4, [some (if r = b then s.reg b - 4 else s.reg r)])
  | .unlock r b => if s.lock then some (s.reg b, 4, [some (s.reg r)]) else none
  | .bset p x b =>
    let a := s.reg b + x.signExtend 32
    some (a, 1, [some ((s.readByte 1 a ||| bitMask p).zeroExtend 32), none])
  | .bclr p x b =>
    let a := s.reg b + x.signExtend 32
    some (a, 1, [some ((s.readByte 1 a &&& ~~~ bitMask p).zeroExtend 32), none])
  | _ => none

/-! ### FPU operations -/

/-- The twelve FPU operation instructions with the destination `d` and the sources `a` and `b` (10_state.md R40). -/
def fpuOperations (d a b : Reg) : List Instr :=
  [.fadd d a b, .fsub d a b, .fmul d a b, .fdiv d a b, .fmadd d a b, .fmsub d a b, .fcmp d a b, .fcmpe d a b, .itof d a,
    .utof d a, .ftoi d a, .ftos d a]

/-- The FPSR after an operation that ends without EIT processing: the cause bits, and the flags of what was detected raised
(47_float_arith.md R326, R327). -/
def fpsrAfter (f : Fpsr) (e : FpCauses) : Fpsr :=
  { f with cause := e, fx := f.fx || e.cx, fu := f.fu || e.cu, fz := f.fz || e.cz, fo := f.fo || e.co, fv := f.fv || e.cv }

/-! ### Encodings as the manual prints them -/

/-- A 16-bit instruction by its four fields, MSB first: as an instruction A and as an instruction B (30_encoding.md R108). -/
def Spelled16 (b0 b4 b8 b12 : BitVec 4) (i : Instr) : Prop :=
  (∀ l : Half, decodeHigh ((b0 ++ b4) ++ (b8 ++ b12)) l = .instr i) ∧ decodeLow ((b0 ++ b4) ++ (b8 ++ b12)) = .instr i

/-- A 16-bit instruction with an 8-bit field at b8 (30_encoding.md R108). -/
def Spelled8 (b0 b4 : BitVec 4) (imm8 : BitVec 8) (i : Instr) : Prop :=
  (∀ l : Half, decodeHigh ((b0 ++ b4) ++ imm8) l = .instr i) ∧ decodeLow ((b0 ++ b4) ++ imm8) = .instr i

/-- A 32-bit instruction by its four fields and its low-order halfword (30_encoding.md R109). -/
def Spelled32 (b0 b4 b8 b12 : BitVec 4) (lo16 : Half) (i : Instr) : Prop :=
  decodeHigh ((b0 ++ b4) ++ (b8 ++ b12)) lo16 = .instr i

/-- A 32-bit instruction with a 24-bit field at b8 (30_encoding.md R109). -/
def Spelled24 (b0 b4 : BitVec 4) (imm24 : BitVec 24) (i : Instr) : Prop :=
  decodeHigh ((b0 ++ b4) ++ imm24.extractLsb' 16 8) (imm24.extractLsb' 0 16) = .instr i

end Sys2Proof.Machine
end

