-- ==== Sys2Proof/Certificates/Slice0/Obligations.lean ====
section
/-! DEFINITION. The statements about this machine, from the numbered rules of spec/. -/

open Sys2Proof Sys2Proof.Machine

/-! ### Encoding -/

/-- Decoding the encoding of a well-formed instruction gives that instruction, with every operand at every value
(30_encoding.md R101, R102, R108, R109, R115 to R117): a 16-bit instruction both as instruction A and as instruction B, 0xF000
as instruction B. -/
def Obligations.DecodingAnEncodedInstructionGivesIt : Prop :=
  ∀ i : Instr, i.wellFormed = true →
    match encode i with
    | .half h => (i ≠ .nopPar → ∀ l : Half, decodeHigh h l = .instr i) ∧ decodeLow h = .instr i
    | .word h l => decodeHigh h l = .instr i

/-- Whatever the decoder accepts is the encoding of what it answers (30_encoding.md R118, R119, R133): no fixed bit is ignored
and no two bit patterns share an instruction. -/
def Obligations.AcceptedBitsAreTheEncoding : Prop :=
  (∀ (h l : Half) (i : Instr), decodeHigh h l = .instr i → encode i = .half h ∨ encode i = .word h l) ∧
  (∀ (h : Half) (i : Instr), decodeLow h = .instr i → encode i = .half h)

/-- Words that the instruction rules print beside their assembly decode to that assembly. -/
def Obligations.PrintedWordsDecodeToTheirAssembly : Prop :=
  decodeTableWord 16 0x01A2 = some (.add 1 2) ∧
  decodeTableWord 16 0x21EF = some (.ldInc 1 15) ∧
  decodeTableWord 16 0x217F = some (.stPreDec 1 15) ∧
  decodeTableWord 16 0x5144 = some (.slli 1 4) ∧
  decodeTableWord 16 0x07F1 = some (.btst 7 1) ∧
  decodeTableWord 16 0x10A1 = some (.mvtc 1 0) ∧
  decodeTableWord 16 0x51F2 = some (.mvfacmi 1) ∧
  decodeTableWord 16 0x7DFE = some (.bnc8 0xFE) ∧
  decodeTableWord 32 0xA1C2FFFC = some (.ldDisp 1 0xFFFC 2) ∧
  decodeTableWord 32 0xA3620004 = some (.bset 3 4 2) ∧
  decodeTableWord 32 0x91220000 = some (.rem 1 2) ∧
  decodeTableWord 32 0xD1023040 = some (.fmsub 0 1 2) ∧
  decodeTableWord 32 0xD10040C0 = some (.ftos 0 1) ∧
  decodeTableWord 32 0xE2123456 = some (.ld24 2 0x123456)

/-- The spec's own decisions D6, D7 and D30 (log entries 14 and 15): whatever the decoder rejects makes the step answer
refused, with the reason the decoder names. The decoder rejects what is no instruction's encoding (30_encoding.md R118, R119):
as unassigned16 or unassigned32 by the MSB of the halfword, and a low-order halfword with its MSB set as parallelNotNop.
Among them are a low-order halfword with its MSB set that is not 0xF000 and the major opcode 1100. MVFC and MVTC with a
control register number that names no register are refused as well. -/
def Obligations.RefusedEncodingsAreNamed : Prop :=
  (∀ s : State, s.resetReq = false → s.interruptAccepted = false → s.pc.getLsbD 0 = false → s.fetchBacked = true →
    (s.decodeAt = .rejected .unassigned16 → step s = .refused .unassignedEncoding16) ∧
    (s.decodeAt = .rejected .unassigned32 → step s = .refused .unassignedEncoding32) ∧
    (s.decodeAt = .rejected .parallelNotNop → step s = .refused .parallelNotNop)) ∧
  (∀ h l : Half, (∀ i : Instr, encode i = .half h → i = .nopPar) → (∀ i : Instr, encode i ≠ .word h l) →
    decodeHigh h l = .rejected (if h.msb = true then .unassigned32 else .unassigned16)) ∧
  (∀ h : Half, (∀ i : Instr, encode i ≠ .half h) →
    decodeLow h = .rejected (if h.msb = true then .parallelNotNop else .unassigned16)) ∧
  (∀ s : State, s.resetReq = false → s.interruptAccepted = false → s.fetchBacked = true → s.atLowHalf →
    (s.fetch16 s.pc).msb = true → s.fetch16 s.pc ≠ 0xF000 → step s = .refused .parallelNotNop) ∧
  (∀ s : State, s.resetReq = false → s.interruptAccepted = false → s.fetchBacked = true → aligned4 s.pc = true →
    (s.fetch16 s.pc).extractLsb' 12 4 = 0xC → step s = .refused .unassignedEncoding32) ∧
  (∀ (s : State) (r : Reg) (cr : CReg), CReg.named cr = false →
    exec (.mvfc r cr) s = .refused (.noControlRegister cr) ∧ exec (.mvtc r cr) s = .refused (.noControlRegister cr))

/-! ### The step and the whole machine -/

/-- A step runs the decoded instruction (30_encoding.md R106): with no reset and no accepted interrupt, at an even program
counter that the platform backs and whose bits decode to an instruction, the step is that instruction's `exec`, the number of
the next draw advanced; and where the instruction lies in plain memory with no store in the instruction queue, the platform
backs it and the bits are those of memory. That the number of the next draw advances by one is the model's own choice (log
entry 32), that the byte at the lower address is the more significant the spec's decision D1 (log entry 9). -/
def Obligations.StepRunsTheDecodedInstruction : Prop :=
  ∀ s : State,
    (∀ i : Instr, s.resetReq = false → s.interruptAccepted = false → s.pc.getLsbD 0 = false → s.fetchBacked = true →
      s.decodeAt = .instr i →
      (∀ t : State, exec i s = .next t → step s = .next { t with drawIndex := t.drawIndex + 1 }) ∧
      (∀ e : Refusal, exec i s = .refused e → step s = .refused e)) ∧
    (s.ramAt s.pc (if s.pc.extractLsb' 0 2 = 0 then 4 else 2) = true → s.fetchBacked = true) ∧
    (s.queue = [] → s.ramAt s.pc (if s.pc.extractLsb' 0 2 = 0 then 4 else 2) = true →
      s.decodeAt = if s.pc.extractLsb' 0 2 = 0 then
          decodeHigh (byteAt s s.pc ++ byteAt s (s.pc + 1)) (byteAt s (s.pc + 2) ++ byteAt s (s.pc + 2 + 1))
        else decodeLow (byteAt s s.pc ++ byteAt s (s.pc + 1)))

/-- The machine after reset satisfies the invariant. -/
def Obligations.ResetSatisfiesTheInvariant : Prop := State.reset.Inv

/-- From a state that satisfies the invariant (memory in canonical form; bit 0 of PC and BPC 0, 10_state.md R45, R34), a step
never faults, and a next state satisfies the invariant again. -/
def Obligations.EveryStepKeepsTheInvariant : Prop :=
  ∀ s : State, s.Inv → (∀ e : Fault, step s ≠ .fault e) ∧ ∀ t : State, step s = .next t → t.Inv

/-- Every well-formed instruction answers a next state, in every state, unless it accesses an address that the platform does
not back: no instruction is privileged, none faults (60_exceptions.md R402, R403, R432). An aligned access to such an address,
and a fetch from one, is refused (20_memory.md R80, the spec's decision D29, log entry 8). -/
def Obligations.EveryInstructionHasANextState : Prop :=
  (∀ (i : Instr) (s : State), i.wellFormed = true →
    (∀ (a : Word) (n : Nat) (vs : List (Option Word)), dataAccess i s = some (a, n, vs) → a.toNat % n ≠ 0 ∨ s.backed a n = true) →
    ∃ t : State, exec i s = .next t) ∧
  (∀ (i : Instr) (s : State) (a : Word) (n : Nat) (vs : List (Option Word)), dataAccess i s = some (a, n, vs) →
    a.toNat % n = 0 → s.backed a n = false → exec i s = .refused (.unbackedAddress a)) ∧
  (∀ s : State, s.resetReq = false → s.interruptAccepted = false → s.pc.getLsbD 0 = false → s.fetchBacked = false →
    step s = .refused (.unbackedAddress s.pc))

/-- After any instruction the program counter is past its own two or four bytes (30_encoding.md R104), or it has gone to a word
boundary (20_memory.md R75, 44_branch.md R250) and nothing is left of the instruction queue. That the queue is empty then is
the model's choice of what the spec's decision D28 leaves open (20_memory.md R87, log entry 31). -/
def Obligations.TheNextPcIsSequentialOrWordAligned : Prop :=
  ∀ (i : Instr) (s t : State), exec i s = .next t →
    (match encode i with
      | .half _ => t.pc = s.pc + 2
      | .word _ _ => t.pc = s.pc + 4) ∨ (t.pc.extractLsb' 0 2 = 0 ∧ t.queue = [])

/-- Only LOCK, UNLOCK, BSET and BCLR change the LOCK bit (20_memory.md R85, 10_state.md R46); an EIT does not, by the spec's
decision D9 (log entry 6). -/
def Obligations.OnlyLockingInstructionsChangeTheLockBit : Prop :=
  ∀ (i : Instr) (s t : State), exec i s = .next t → t.lock ≠ s.lock →
    (∃ d r : Reg, i = .lock d r) ∨ (∃ a b : Reg, i = .unlock a b) ∨
    (∃ (p : BitVec 3) (x : BitVec 16) (r : Reg), i = .bset p x r ∨ i = .bclr p x r)

/-- Only MUL, the eight multiply and multiply-accumulate instructions, RAC, RACH, MVTACHI and MVTACLO change the accumulator
(10_state.md R44). -/
def Obligations.OnlyMulAndDspInstructionsChangeTheAccumulator : Prop :=
  ∀ (i : Instr) (s t : State), exec i s = .next t → t.acc ≠ s.acc →
    (∃ a b : Reg, i = .mul a b ∨ i = .mulhi a b ∨ i = .mullo a b ∨ i = .mulwhi a b ∨ i = .mulwlo a b ∨
      i = .machi a b ∨ i = .maclo a b ∨ i = .macwhi a b ∨ i = .macwlo a b) ∨
    i = .rac ∨ i = .rach ∨ (∃ r : Reg, i = .mvtachi r ∨ i = .mvtaclo r)

/-- Only stores, UNLOCK, BSET and BCLR change memory (20_memory.md R76). -/
def Obligations.OnlyStoringInstructionsChangeMemory : Prop :=
  ∀ (i : Instr) (s t : State), exec i s = .next t → t.mem ≠ s.mem →
    (∃ a b : Reg, i = .st a b ∨ i = .stPreInc a b ∨ i = .stPreDec a b ∨ i = .stb a b ∨ i = .sth a b ∨ i = .sthInc a b ∨
      i = .unlock a b) ∨
    (∃ (a b : Reg) (x : BitVec 16), i = .stDisp a x b ∨ i = .stbDisp a x b ∨ i = .sthDisp a x b) ∨
    (∃ (p : BitVec 3) (x : BitVec 16) (r : Reg), i = .bset p x r ∨ i = .bclr p x r)

/-- Every instruction but those of the list leaves C unchanged, or enters an exception with C in BC and C = 0 (10_state.md
R29); SM changes by MVTC to CR0, SETPSW, CLRPSW and RTE only (R27; that AE and FPE keep it is the spec's decision D3, log
entry 11). -/
def Obligations.OnlyListedInstructionsChangeTheConditionBitOrSm : Prop :=
  ∀ (i : Instr) (s t : State), exec i s = .next t →
    ((∃ a b : Reg, i = .addv a b ∨ i = .addx a b ∨ i = .subv a b ∨ i = .subx a b ∨ i = .cmp a b ∨ i = .cmpu a b) ∨
      (∃ (a b : Reg) (x : BitVec 16), i = .addv3 a b x ∨ i = .cmpi a x ∨ i = .cmpui a x) ∨
      (∃ (p : BitVec 3) (r : Reg), i = .btst p r) ∨ (∃ x : BitVec 8, i = .setpsw x ∨ i = .clrpsw x) ∨
      (∃ r : Reg, i = .mvtc r 0) ∨ i = .rte ∨ (∃ n : BitVec 4, i = .trap n) ∨
      t.psw.c = s.psw.c ∨ (t.psw.bc = s.psw.c ∧ t.psw.c = false ∧ (t.pc = Config.vecAE ∨ t.pc = Config.vecFPE))) ∧
    ((∃ x : BitVec 8, i = .setpsw x ∨ i = .clrpsw x) ∨ (∃ r : Reg, i = .mvtc r 0) ∨ i = .rte ∨ t.psw.sm = s.psw.sm)

/-! ### Registers and control registers -/

/-- R15 is SPI while SM = 0 and SPU while SM = 1, for reads and for writes; a write of one leaves the other, and a write of
another register leaves both (10_state.md R22). -/
def Obligations.R15IsTheStackPointerThatSmSelects : Prop :=
  ∀ (s : State) (v : Word),
    (s.psw.sm = false → s.reg 15 = s.spi ∧ (s.setReg 15 v).spi = v ∧ (s.setReg 15 v).spu = s.spu) ∧
    (s.psw.sm = true → s.reg 15 = s.spu ∧ (s.setReg 15 v).spu = v ∧ (s.setReg 15 v).spi = s.spi) ∧
    (s.setReg 15 v).gpr = s.gpr ∧
    (∀ r : Reg, r ≠ 15 → (s.setReg r v).spi = s.spi ∧ (s.setReg r v).spu = s.spu)

/-- CBR is the condition bit of the PSW: MVFC reads it into value bit 0, a write by MVTC changes nothing but the program
counter, and it reads 0 after reset (10_state.md R31). FS reads as the sum of FU, FZ, FO and FV, FX apart; a written FS is
ignored (10_state.md R36). -/
def Obligations.CbrAndFsAreViewsOfOtherBits : Prop :=
  (∀ (s : State) (r : Reg), WritesReg (.mvfc r 1) s r ((BitVec.ofBool s.psw.c).zeroExtend 32) 2) ∧
  (∀ (s : State) (r : Reg), exec (.mvtc r 1) s = .next { s with pc := s.pc + 2 }) ∧
  State.reset.readCR 1 = some 0 ∧
  (∀ f : Fpsr,
    (f.image.getLsbD 31 = true ↔ f.fu = true ∨ f.fz = true ∨ f.fo = true ∨ f.fv = true) ∧
    (∀ v : Word, f.write (v ^^^ 0x80000000) = f.write v))

/-- MVFC of each control register: encoding; the PSW image, CBR, SPI, SPU, BPC, the FPSR image with FS as the sum of FU, FZ,
FO and FV; every bit without a function reads 0, by the spec's decision D14 (41_transfer.md R184, 10_state.md R30, R34, R36,
R42; log entry 21). -/
def Obligations.MvfcReadsEachControlRegister : Prop :=
  (∀ (d : Reg) (cr : CReg), Spelled16 0x1 d 0x9 cr (.mvfc d cr)) ∧
  ∀ (s : State) (d : Reg),
    (∃ v : Word, WritesReg (.mvfc d 0) s d v 2 ∧
      v.getLsbD 15 = s.psw.bsm ∧ v.getLsbD 14 = s.psw.bie ∧ v.getLsbD 8 = s.psw.bc ∧ v.getLsbD 7 = s.psw.sm ∧
      v.getLsbD 6 = s.psw.ie ∧ v.getLsbD 0 = s.psw.c ∧ v &&& 0xFFFF3E3E = 0) ∧
    WritesReg (.mvfc d 1) s d ((BitVec.ofBool s.psw.c).zeroExtend 32) 2 ∧
    WritesReg (.mvfc d 2) s d s.spi 2 ∧ WritesReg (.mvfc d 3) s d s.spu 2 ∧ WritesReg (.mvfc d 6) s d s.bpc 2 ∧
    (∃ v : Word, WritesReg (.mvfc d 7) s d v 2 ∧
      (v.getLsbD 31 = true ↔ s.fpsr.fu = true ∨ s.fpsr.fz = true ∨ s.fpsr.fo = true ∨ s.fpsr.fv = true) ∧
      v.getLsbD 30 = s.fpsr.fx ∧ v.getLsbD 29 = s.fpsr.fu ∧ v.getLsbD 28 = s.fpsr.fz ∧ v.getLsbD 27 = s.fpsr.fo ∧
      v.getLsbD 26 = s.fpsr.fv ∧ v.getLsbD 14 = s.fpsr.ex ∧ v.getLsbD 13 = s.fpsr.eu ∧ v.getLsbD 12 = s.fpsr.ez ∧
      v.getLsbD 11 = s.fpsr.eo ∧ v.getLsbD 10 = s.fpsr.ev ∧ v.getLsbD 8 = s.fpsr.dn ∧ v.getLsbD 7 = s.fpsr.cause.ce ∧
      v.getLsbD 6 = s.fpsr.cause.cx ∧ v.getLsbD 5 = s.fpsr.cause.cu ∧ v.getLsbD 4 = s.fpsr.cause.cz ∧
      v.getLsbD 3 = s.fpsr.cause.co ∧ v.getLsbD 2 = s.fpsr.cause.cv ∧ v.extractLsb' 0 2 = s.fpsr.rm.bits ∧
      v &&& 0x03FF8200 = 0)

/-- MVTC to each control register: encoding, and its own write rule (41_transfer.md R185, 10_state.md R30, R34, R42). That unnamed bits
discard what is written, and that the write of CR7 is no FPU operation, are the spec's decisions D14 and D15 (log entries 21
and 22). -/
def Obligations.MvtcWritesEachControlRegister : Prop :=
  (∀ (r : Reg) (cr : CReg), Spelled16 0x1 cr 0xA r (.mvtc r cr)) ∧
  ∀ (s : State) (r : Reg),
    (Completes (.mvtc r 0) s fun t =>
      t.psw = { bsm := (s.reg r).getLsbD 15, bie := (s.reg r).getLsbD 14, bc := (s.reg r).getLsbD 8
                sm := (s.reg r).getLsbD 7, ie := (s.reg r).getLsbD 6, c := (s.reg r).getLsbD 0 } ∧
      BanksKept s t ∧ KeepsBut [.c, .smIe, .backup] s t ∧ t.pc = s.pc + 2) ∧
    (Completes (.mvtc r 2) s fun t =>
      t.spi = s.reg r ∧ t.spu = s.spu ∧ t.gpr = s.gpr ∧ KeepsBut [] s t ∧ t.pc = s.pc + 2) ∧
    (Completes (.mvtc r 3) s fun t =>
      t.spu = s.reg r ∧ t.spi = s.spi ∧ t.gpr = s.gpr ∧ KeepsBut [] s t ∧ t.pc = s.pc + 2) ∧
    (Completes (.mvtc r 6) s fun t =>
      t.bpc.getLsbD 0 = false ∧ (∀ n : Nat, 0 < n → t.bpc.getLsbD n = (s.reg r).getLsbD n) ∧
      BanksKept s t ∧ KeepsBut [.bpc] s t ∧ t.pc = s.pc + 2) ∧
    (Completes (.mvtc r 7) s fun t =>
      t.fpsr.image &&& 0x7FFFFFFF =
        (s.reg r &&& 0x7C007D03) ||| (s.reg r &&& s.fpsr.image &&& 0x000000FC) ∧
      BanksKept s t ∧ KeepsBut [.fpsr] s t ∧ t.pc = s.pc + 2)

/-- The transfer instructions LD24, LDI in both forms, MV and SETH: encoding and result (41_transfer.md). The encoding of LD24
is the spec's own inference: its box is lost in part and is rebuilt from the summary table (30_encoding.md R117, 41_transfer.md
R180). -/
def Obligations.TransferInstructionsWriteTheirValue : Prop :=
  (∀ (d : Reg) (x : BitVec 24), Spelled24 0xE d x (.ld24 d x)) ∧
  (∀ (d : Reg) (x : BitVec 8), Spelled8 0x6 d x (.ldi8 d x)) ∧
  (∀ (d : Reg) (x : BitVec 16), Spelled32 0x9 d 0xF 0 x (.ldi16 d x)) ∧
  (∀ d r : Reg, Spelled16 0x1 d 0x8 r (.mv d r)) ∧
  (∀ (d : Reg) (x : BitVec 16), Spelled32 0xD d 0xC 0 x (.seth d x)) ∧
  ∀ (s : State) (d r : Reg),
    (∀ x : BitVec 24, WritesReg (.ld24 d x) s d (BitVec.ofNat 32 x.toNat) 4) ∧
    (∀ x : BitVec 8, WritesReg (.ldi8 d x) s d (BitVec.ofInt 32 x.toInt) 2) ∧
    (∀ x : BitVec 16, WritesReg (.ldi16 d x) s d (BitVec.ofInt 32 x.toInt) 4) ∧
    WritesReg (.mv d r) s d (s.reg r) 2 ∧
    (∀ x : BitVec 16, WritesReg (.seth d x) s d (BitVec.ofNat 32 (x.toNat * 2 ^ 16)) 4)

/-! ### Compare, arithmetic, logic -/

/-- CMP, CMPI, CMPU, CMPUI: encoding, and C as the signed or unsigned order of the operands (42_compare_arith_logic.md). -/
def Obligations.CompareInstructionsSetTheConditionBit : Prop :=
  (∀ a b : Reg, Spelled16 0x0 a 0x4 b (.cmp a b) ∧ Spelled16 0x0 a 0x5 b (.cmpu a b)) ∧
  (∀ (a : Reg) (x : BitVec 16), Spelled32 0x8 0 0x4 a x (.cmpi a x) ∧ Spelled32 0x8 0 0x5 a x (.cmpui a x)) ∧
  ∀ (s : State) (a b : Reg) (x : BitVec 16),
    WritesC (.cmp a b) s (decide ((s.reg a).toInt < (s.reg b).toInt)) 2 ∧
    WritesC (.cmpi a x) s (decide ((s.reg a).toInt < x.toInt)) 4 ∧
    WritesC (.cmpu a b) s (decide ((s.reg a).toNat < (s.reg b).toNat)) 2 ∧
    WritesC (.cmpui a x) s (decide ((s.reg a).toNat < (x.signExtend 32).toNat)) 4

/-- The additions and subtractions: encoding, the result modulo 2^32, and C where the instruction writes it: signed overflow
for ADDV, ADDV3, SUBV, the carry for ADDX, the borrow for SUBX; every other leaves C (42_compare_arith_logic.md). -/
def Obligations.AdditionsAndSubtractionsWrapAndReport : Prop :=
  (∀ d r : Reg, Spelled16 0x0 d 0xA r (.add d r) ∧ Spelled16 0x0 d 0x2 r (.sub d r) ∧ Spelled16 0x0 d 0x3 r (.neg d r) ∧
    Spelled16 0x0 d 0x8 r (.addv d r) ∧ Spelled16 0x0 d 0x0 r (.subv d r) ∧ Spelled16 0x0 d 0x9 r (.addx d r) ∧
    Spelled16 0x0 d 0x1 r (.subx d r)) ∧
  (∀ (d : Reg) (x : BitVec 8), Spelled8 0x4 d x (.addi d x)) ∧
  (∀ (d r : Reg) (x : BitVec 16), Spelled32 0x8 d 0xA r x (.add3 d r x) ∧ Spelled32 0x8 d 0x8 r x (.addv3 d r x)) ∧
  ∀ (s : State) (d r : Reg) (x : BitVec 16) (y : BitVec 8),
    WritesReg (.add d r) s d (BitVec.ofInt 32 ((s.reg d).toInt + (s.reg r).toInt)) 2 ∧
    WritesReg (.add3 d r x) s d (BitVec.ofInt 32 ((s.reg r).toInt + x.toInt)) 4 ∧
    WritesReg (.addi d y) s d (BitVec.ofInt 32 ((s.reg d).toInt + y.toInt)) 2 ∧
    WritesReg (.sub d r) s d (BitVec.ofInt 32 ((s.reg d).toInt - (s.reg r).toInt)) 2 ∧
    WritesReg (.neg d r) s d (BitVec.ofInt 32 (0 - (s.reg r).toInt)) 2 ∧
    WritesRegAndC (.addv d r) s d (BitVec.ofInt 32 ((s.reg d).toInt + (s.reg r).toInt))
      (decide ((s.reg d).toInt + (s.reg r).toInt < -2 ^ 31 ∨ 2 ^ 31 - 1 < (s.reg d).toInt + (s.reg r).toInt)) 2 ∧
    WritesRegAndC (.addv3 d r x) s d (BitVec.ofInt 32 ((s.reg r).toInt + x.toInt))
      (decide ((s.reg r).toInt + x.toInt < -2 ^ 31 ∨ 2 ^ 31 - 1 < (s.reg r).toInt + x.toInt)) 4 ∧
    WritesRegAndC (.subv d r) s d (BitVec.ofInt 32 ((s.reg d).toInt - (s.reg r).toInt))
      (decide ((s.reg d).toInt - (s.reg r).toInt < -2 ^ 31 ∨ 2 ^ 31 - 1 < (s.reg d).toInt - (s.reg r).toInt)) 2 ∧
    WritesRegAndC (.addx d r) s d (BitVec.ofNat 32 ((s.reg d).toNat + (s.reg r).toNat + s.psw.c.toNat))
      (decide (2 ^ 32 ≤ (s.reg d).toNat + (s.reg r).toNat + s.psw.c.toNat)) 2 ∧
    WritesRegAndC (.subx d r) s d (BitVec.ofInt 32 ((s.reg d).toNat - (s.reg r).toNat - s.psw.c.toNat : Int))
      (decide ((s.reg d).toNat < (s.reg r).toNat + s.psw.c.toNat)) 2

/-- The logic instructions: encoding, and the result bit by bit (42_compare_arith_logic.md). -/
def Obligations.LogicInstructionsWorkBitByBit : Prop :=
  (∀ d r : Reg, Spelled16 0x0 d 0xC r (.and d r) ∧ Spelled16 0x0 d 0xE r (.or d r) ∧ Spelled16 0x0 d 0xD r (.xor d r) ∧
    Spelled16 0x0 d 0xB r (.not d r)) ∧
  (∀ (d r : Reg) (x : BitVec 16), Spelled32 0x8 d 0xC r x (.and3 d r x) ∧ Spelled32 0x8 d 0xE r x (.or3 d r x) ∧
    Spelled32 0x8 d 0xD r x (.xor3 d r x)) ∧
  ∀ (s : State) (d r : Reg) (x : BitVec 16),
    (∃ v : Word, WritesReg (.and d r) s d v 2 ∧ ∀ n < 32, v.getLsbD n = ((s.reg d).getLsbD n && (s.reg r).getLsbD n)) ∧
    (∃ v : Word, WritesReg (.or d r) s d v 2 ∧ ∀ n < 32, v.getLsbD n = ((s.reg d).getLsbD n || (s.reg r).getLsbD n)) ∧
    (∃ v : Word, WritesReg (.xor d r) s d v 2 ∧ ∀ n < 32, v.getLsbD n = ((s.reg d).getLsbD n ^^ (s.reg r).getLsbD n)) ∧
    (∃ v : Word, WritesReg (.not d r) s d v 2 ∧ ∀ n < 32, v.getLsbD n = !(s.reg r).getLsbD n) ∧
    (∃ v : Word, WritesReg (.and3 d r x) s d v 4 ∧
      ∀ n < 32, v.getLsbD n = ((s.reg r).getLsbD n && decide (n < 16) && x.getLsbD n)) ∧
    (∃ v : Word, WritesReg (.or3 d r x) s d v 4 ∧
      ∀ n < 32, v.getLsbD n = ((s.reg r).getLsbD n || (decide (n < 16) && x.getLsbD n))) ∧
    (∃ v : Word, WritesReg (.xor3 d r x) s d v 4 ∧
      ∀ n < 32, v.getLsbD n = ((s.reg r).getLsbD n ^^ (decide (n < 16) && x.getLsbD n)))

/-! ### Multiply, divide, shift -/

/-- MUL: encoding; it writes the low 32 bits of the signed product and may change the accumulator, nothing else; nothing is
said of the accumulator's value, which is a draw by the spec's decision D31 (log entry 29). DIV, DIVU, REM, REMU: encoding;
nothing for a zero divisor; otherwise the quotient rounded toward zero or the remainder that goes with it; for 0x80000000 by
0xFFFFFFFF DIV and REM write some value and change nothing else (43_muldiv_shift.md R220 to R225; that case is the spec's
decision D24, log entry 28). -/
def Obligations.MulAndDivisionsWriteTheirResult : Prop :=
  (∀ d r : Reg, Spelled16 0x1 d 0x6 r (.mul d r)) ∧
  (∀ (s : State) (d r : Reg),
    WritesReg (.mul d r) s d (BitVec.ofInt 32 ((s.reg d).toInt * (s.reg r).toInt)) 2 [.acc]) ∧
  (∀ d r : Reg, Spelled32 0x9 d 0x0 r 0 (.div d r) ∧ Spelled32 0x9 d 0x1 r 0 (.divu d r) ∧
    Spelled32 0x9 d 0x2 r 0 (.rem d r) ∧ Spelled32 0x9 d 0x3 r 0 (.remu d r)) ∧
  ∀ (s : State) (d r : Reg),
    (s.reg r = 0 → ∀ i ∈ [Instr.div d r, .divu d r, .rem d r, .remu d r], WritesReg i s d (s.reg d) 4) ∧
    (s.reg r ≠ 0 →
      (∃ q m : Nat, WritesReg (.divu d r) s d (BitVec.ofNat 32 q) 4 ∧ WritesReg (.remu d r) s d (BitVec.ofNat 32 m) 4 ∧
        (s.reg d).toNat = (s.reg r).toNat * q + m ∧ m < (s.reg r).toNat)) ∧
    (s.reg r ≠ 0 → ¬ (s.reg d = 0x80000000 ∧ s.reg r = 0xFFFFFFFF) →
      (∃ q m : Int, WritesReg (.div d r) s d (BitVec.ofInt 32 q) 4 ∧ WritesReg (.rem d r) s d (BitVec.ofInt 32 m) 4 ∧
        (s.reg d).toInt = (s.reg r).toInt * q + m ∧ m.natAbs < (s.reg r).toInt.natAbs ∧
        (0 ≤ (s.reg d).toInt → 0 ≤ m) ∧ ((s.reg d).toInt ≤ 0 → m ≤ 0) ∧ -2 ^ 31 ≤ q ∧ q < 2 ^ 31)) ∧
    (s.reg d = 0x80000000 → s.reg r = 0xFFFFFFFF →
      ∃ v w : Word, WritesReg (.div d r) s d v 4 ∧ WritesReg (.rem d r) s d w 4)

/-- The nine shifts: encoding, a count of five bits, zeros or copies of the sign shifted in (43_muldiv_shift.md R227 to R236):
a left shift multiplies by 2^n modulo 2^32, a right shift divides by 2^n and rounds down. -/
def Obligations.ShiftsMultiplyOrDivideByAPowerOfTwo : Prop :=
  (∀ d r : Reg, Spelled16 0x1 d 0x4 r (.sll d r) ∧ Spelled16 0x1 d 0x2 r (.sra d r) ∧ Spelled16 0x1 d 0x0 r (.srl d r)) ∧
  (∀ (d : Reg) (y : BitVec 5), Spelled8 0x5 d (0b010#3 ++ y) (.slli d y) ∧ Spelled8 0x5 d (0b001#3 ++ y) (.srai d y) ∧
    Spelled8 0x5 d (0b000#3 ++ y) (.srli d y)) ∧
  (∀ (d r : Reg) (x : BitVec 16), Spelled32 0x9 d 0xC r x (.sll3 d r x) ∧ Spelled32 0x9 d 0xA r x (.sra3 d r x) ∧
    Spelled32 0x9 d 0x8 r x (.srl3 d r x)) ∧
  ∀ (s : State) (d r : Reg) (x : BitVec 16) (y : BitVec 5),
    WritesReg (.sll d r) s d (BitVec.ofNat 32 ((s.reg d).toNat * 2 ^ ((s.reg r).toNat % 32))) 2 ∧
    WritesReg (.sll3 d r x) s d (BitVec.ofNat 32 ((s.reg r).toNat * 2 ^ (x.toNat % 32))) 4 ∧
    WritesReg (.slli d y) s d (BitVec.ofNat 32 ((s.reg d).toNat * 2 ^ y.toNat)) 2 ∧
    WritesReg (.sra d r) s d (BitVec.ofInt 32 ((s.reg d).toInt / 2 ^ ((s.reg r).toNat % 32))) 2 ∧
    WritesReg (.sra3 d r x) s d (BitVec.ofInt 32 ((s.reg r).toInt / 2 ^ (x.toNat % 32))) 4 ∧
    WritesReg (.srai d y) s d (BitVec.ofInt 32 ((s.reg d).toInt / 2 ^ y.toNat)) 2 ∧
    WritesReg (.srl d r) s d (BitVec.ofNat 32 ((s.reg d).toNat / 2 ^ ((s.reg r).toNat % 32))) 2 ∧
    WritesReg (.srl3 d r x) s d (BitVec.ofNat 32 ((s.reg r).toNat / 2 ^ (x.toNat % 32))) 4 ∧
    WritesReg (.srli d y) s d (BitVec.ofNat 32 ((s.reg d).toNat / 2 ^ y.toNat)) 2

/-! ### Load and store -/

/-- The plain loads from plain memory: encoding; the bytes of memory, most significant first, extended as the instruction says;
AE with nothing written where the access is not aligned, whatever is at the address (40_load_store.md). What AE does and what a
device answers are other statements'. That the bytes of a halfword or word lie most significant first is the spec's decision D1
(log entry 9), that AE writes nothing its decision D12 (log entry 19). -/
def Obligations.LoadsReadBigEndianBytesOrRaiseAe : Prop :=
  (∀ d r : Reg, Spelled16 0x2 d 0x8 r (.ldb d r) ∧ Spelled16 0x2 d 0x9 r (.ldub d r) ∧ Spelled16 0x2 d 0xA r (.ldh d r) ∧
    Spelled16 0x2 d 0xB r (.lduh d r) ∧ Spelled16 0x2 d 0xC r (.ld d r)) ∧
  (∀ (d r : Reg) (x : BitVec 16), Spelled32 0xA d 0x8 r x (.ldbDisp d x r) ∧ Spelled32 0xA d 0x9 r x (.ldubDisp d x r) ∧
    Spelled32 0xA d 0xA r x (.ldhDisp d x r) ∧ Spelled32 0xA d 0xB r x (.lduhDisp d x r) ∧
    Spelled32 0xA d 0xC r x (.ldDisp d x r)) ∧
  ∀ (s : State) (d r : Reg) (x : BitVec 16) (a : Word) (len : Word),
    (∀ i8 u8 i16 u16 w : Instr,
      (a = s.reg r ∧ len = 2 ∧ i8 = .ldb d r ∧ u8 = .ldub d r ∧ i16 = .ldh d r ∧ u16 = .lduh d r ∧ w = .ld d r) ∨
      (a = s.reg r + x.signExtend 32 ∧ len = 4 ∧ i8 = .ldbDisp d x r ∧ u8 = .ldubDisp d x r ∧ i16 = .ldhDisp d x r ∧
        u16 = .lduhDisp d x r ∧ w = .ldDisp d x r) →
      (s.ramAt a 1 = true →
        WritesReg i8 s d ((byteAt s a).signExtend 32) len ∧ WritesReg u8 s d ((byteAt s a).zeroExtend 32) len) ∧
      (a.getLsbD 0 = false → s.ramAt a 2 = true →
        WritesReg i16 s d ((byteAt s a ++ byteAt s (a + 1)).signExtend 32) len ∧
        WritesReg u16 s d ((byteAt s a ++ byteAt s (a + 1)).zeroExtend 32) len) ∧
      (a.getLsbD 0 = true → exec i16 s = .next (s.eitEntry .ae) ∧ exec u16 s = .next (s.eitEntry .ae)) ∧
      (a.toNat % 4 = 0 → s.ramAt a 4 = true →
        WritesReg w s d ((byteAt s a ++ byteAt s (a + 1)) ++ (byteAt s (a + 2) ++ byteAt s (a + 3))) len) ∧
      (a.toNat % 4 ≠ 0 → exec w s = .next (s.eitEntry .ae)))

/-- The plain stores to plain memory: encoding; the low bytes of the register stored most significant first at the address,
every other byte of memory as before; AE with nothing stored where the access is not aligned, whatever is at the address
(40_load_store.md). What a device sees is another statement's. That the bytes of a halfword or word lie most significant first
is the spec's decision D1 (log entry 9), that AE stores nothing its decision D12 (log entry 19). -/
def Obligations.StoresWriteBigEndianBytesOrRaiseAe : Prop :=
  (∀ a b : Reg, Spelled16 0x2 a 0x0 b (.stb a b) ∧ Spelled16 0x2 a 0x2 b (.sth a b) ∧ Spelled16 0x2 a 0x4 b (.st a b)) ∧
  (∀ (a b : Reg) (x : BitVec 16), Spelled32 0xA a 0x0 b x (.stbDisp a x b) ∧ Spelled32 0xA a 0x2 b x (.sthDisp a x b) ∧
    Spelled32 0xA a 0x4 b x (.stDisp a x b)) ∧
  ∀ (s : State) (r b : Reg) (x : BitVec 16) (a : Word) (len : Word), Memory.wf s.mem = true →
    (∀ i8 i16 w : Instr,
      (a = s.reg b ∧ len = 2 ∧ i8 = .stb r b ∧ i16 = .sth r b ∧ w = .st r b) ∨
      (a = s.reg b + x.signExtend 32 ∧ len = 4 ∧ i8 = .stbDisp r x b ∧ i16 = .sthDisp r x b ∧ w = .stDisp r x b) →
      (s.ramAt a 1 = true → StoresBytes i8 s a [(s.reg r).extractLsb' 0 8] none len) ∧
      (a.getLsbD 0 = false → s.ramAt a 2 = true →
        StoresBytes i16 s a [(s.reg r).extractLsb' 8 8, (s.reg r).extractLsb' 0 8] none len) ∧
      (a.getLsbD 0 = true → exec i16 s = .next (s.eitEntry .ae)) ∧
      (a.toNat % 4 = 0 → s.ramAt a 4 = true →
        StoresBytes w s a [(s.reg r).extractLsb' 24 8, (s.reg r).extractLsb' 16 8, (s.reg r).extractLsb' 8 8,
          (s.reg r).extractLsb' 0 8] none len) ∧
      (a.toNat % 4 ≠ 0 → exec w s = .next (s.eitEntry .ae)))

/-- The forms that update their base register, LD @R+, ST @+R, ST @-R and STH @R+, on plain memory: encoding, access and update
(40_load_store.md R143, R155, R156, R161). That the bytes lie most significant first is the spec's decision D1 (log entry 9).
What happens when both operands name one register is the spec's decision D13 (log entry 20), that AE leaves the base as it is
decision D12 (log entry 19). -/
def Obligations.UpdatingFormsAccessAndUpdateTheirBase : Prop :=
  (∀ d b : Reg, Spelled16 0x2 d 0xE b (.ldInc d b) ∧ Spelled16 0x2 d 0x6 b (.stPreInc d b) ∧
    Spelled16 0x2 d 0x7 b (.stPreDec d b) ∧ Spelled16 0x2 d 0x3 b (.sthInc d b)) ∧
  ∀ (s : State) (d b : Reg), Memory.wf s.mem = true →
    ((s.reg b).toNat % 4 = 0 → s.ramAt (s.reg b) 4 = true →
      Completes (.ldInc d b) s fun t =>
        (d ≠ b → t.reg d = (byteAt s (s.reg b) ++ byteAt s (s.reg b + 1)) ++
          (byteAt s (s.reg b + 2) ++ byteAt s (s.reg b + 3)) ∧ t.reg b = s.reg b + 4) ∧
        (d = b → t.reg b = ((byteAt s (s.reg b) ++ byteAt s (s.reg b + 1)) ++
          (byteAt s (s.reg b + 2) ++ byteAt s (s.reg b + 3))) + 4) ∧
        RegsKeptBut [d, b] s t ∧ KeepsBut [] s t ∧ t.pc = s.pc + 2) ∧
    ((s.reg b).toNat % 4 ≠ 0 → exec (.ldInc d b) s = .next (s.eitEntry .ae)) ∧
    (∀ (i : Instr) (a v : Word),
      (i = .stPreInc d b ∧ a = s.reg b + 4 ∨ i = .stPreDec d b ∧ a = s.reg b - 4) → v = (if d = b then a else s.reg d) →
      (a.toNat % 4 = 0 → s.ramAt a 4 = true →
        StoresBytes i s a [v.extractLsb' 24 8, v.extractLsb' 16 8, v.extractLsb' 8 8, v.extractLsb' 0 8] (some (b, a)) 2) ∧
      (a.toNat % 4 ≠ 0 → exec i s = .next (s.eitEntry .ae))) ∧
    ((s.reg b).getLsbD 0 = false → s.ramAt (s.reg b) 2 = true →
      StoresBytes (.sthInc d b) s (s.reg b) [(s.reg d).extractLsb' 8 8, (s.reg d).extractLsb' 0 8]
        (some (b, s.reg b + 2)) 2) ∧
    ((s.reg b).getLsbD 0 = true → exec (.sthInc d b) s = .next (s.eitEntry .ae))

/-- LOCK and UNLOCK on plain memory: encoding; LOCK sets the LOCK bit and loads; UNLOCK stores only while the LOCK bit is 1 and
clears it (40_load_store.md R153, R163). That the bytes lie most significant first is the spec's decision D1 (log entry 9). That
both check the address first, UNLOCK also while the bit is 0, and that AE leaves the bit, is the spec's decision D25 (log entry
19). -/
def Obligations.LockLoadsAndUnlockStoresUnderTheLockBit : Prop :=
  (∀ d b : Reg, Spelled16 0x2 d 0xD b (.lock d b) ∧ Spelled16 0x2 d 0x5 b (.unlock d b)) ∧
  ∀ (s : State) (d b : Reg), Memory.wf s.mem = true →
    ((s.reg b).toNat % 4 = 0 → s.ramAt (s.reg b) 4 = true →
      (WritesReg (.lock d b) s d ((byteAt s (s.reg b) ++ byteAt s (s.reg b + 1)) ++
        (byteAt s (s.reg b + 2) ++ byteAt s (s.reg b + 3))) 2 [.lock]) ∧
      (Completes (.lock d b) s fun t => t.lock = true)) ∧
    ((s.reg b).toNat % 4 = 0 → s.lock = true → s.ramAt (s.reg b) 4 = true →
      Completes (.unlock d b) s fun t =>
        t.lock = false ∧ RegsKeptBut [] s t ∧ KeepsBut [.mem, .lock] s t ∧ t.pc = s.pc + 2 ∧
        MemKeptBut (s.reg b) 4 s t ∧ byteAt t (s.reg b) = (s.reg d).extractLsb' 24 8 ∧
        byteAt t (s.reg b + 1) = (s.reg d).extractLsb' 16 8 ∧ byteAt t (s.reg b + 2) = (s.reg d).extractLsb' 8 8 ∧
        byteAt t (s.reg b + 3) = (s.reg d).extractLsb' 0 8) ∧
    ((s.reg b).toNat % 4 = 0 → s.lock = false →
      Completes (.unlock d b) s fun t => t.lock = false ∧ RegsKeptBut [] s t ∧ KeepsBut [.lock] s t ∧ t.pc = s.pc + 2) ∧
    ((s.reg b).toNat % 4 ≠ 0 →
      exec (.lock d b) s = .next (s.eitEntry .ae) ∧ exec (.unlock d b) s = .next (s.eitEntry .ae))

/-- A device sees every data access to it once, with its width and, of a store, its value: a load is one read, a store one
write, BSET and BCLR a read and then a write (20_memory.md R76, R78, R80). Memory takes no byte that a device backs. A load takes
from a device what its read function answers, which is open (decision D29, log entry 39). An access that lies in part in a device
and in part in plain memory is covered as well: that the device sees the whole of it then, and that its other bytes are those of
plain memory, is no rule of the spec but the model's choice (DESIGN CHOICE, log entry 39). The updating forms, LOCK, UNLOCK, BSET,
BCLR and the stores leave registers, LOCK bit and program counter as they do on plain memory (40_load_store.md R143, R153 to
R163, 49_bit_operation.md R390, R391); LD @R+ with one register twice by the spec's decision D13 (log entry 20). That the bytes
lie most significant first is the spec's decision D1 (log entry 9). -/
def Obligations.DevicesSeeEachDataAccessOnce : Prop :=
  ∀ s : State, Memory.wf s.mem = true →
    (∀ (i : Instr) (a : Word) (n : Nat) (vs : List (Option Word)), dataAccess i s = some (a, n, vs) → a.toNat % n = 0 →
      s.backed a n = true → (∃ j < n, ∃ k : Nat, s.backing (a + BitVec.ofNat 32 j) = .device k) →
      Completes i s fun t =>
        t.devLog = vs.map (fun v => { addr := a.toNat, width := n, stored := v }) ++ s.devLog ∧ MemKeptBut a n s t ∧
        ∀ j < n, s.backing (a + BitVec.ofNat 32 j) ≠ .ram →
          byteAt t (a + BitVec.ofNat 32 j) = byteAt s (a + BitVec.ofNat 32 j)) ∧
    (∀ (n k : Nat) (a : Word), s.backing a = .device k →
      s.readByte n a = Config.deviceRead s.drawIndex k s.devLog a.toNat n) ∧
    (∀ d b : Reg, (s.reg b).toNat % 4 = 0 → s.backed (s.reg b) 4 = true →
      ∀ v : Word, v = (s.readByte 4 (s.reg b) ++ s.readByte 4 (s.reg b + 1)) ++
          (s.readByte 4 (s.reg b + 2) ++ s.readByte 4 (s.reg b + 3)) →
        (Completes (.ldInc d b) s fun t =>
          (d ≠ b → t.reg d = v ∧ t.reg b = s.reg b + 4) ∧ (d = b → t.reg b = v + 4) ∧ RegsKeptBut [d, b] s t ∧
          KeepsBut [.devices] s t ∧ t.pc = s.pc + 2) ∧
        WritesReg (.lock d b) s d v 2 [.lock, .devices] ∧ Completes (.lock d b) s fun t => t.lock = true) ∧
    (∀ (r b : Reg) (x : BitVec 16) (p : BitVec 3) (i : Instr) (base : Option (Reg × Word)) (clears : Bool) (len : Word),
      (i ∈ [Instr.stb r b, .sth r b, .st r b] ∧ base = none ∧ clears = false ∧ len = 2) ∨
      (i ∈ [Instr.stbDisp r x b, .sthDisp r x b, .stDisp r x b] ∧ base = none ∧ clears = false ∧ len = 4) ∨
      (i = .stPreInc r b ∧ base = some (b, s.reg b + 4) ∧ clears = false ∧ len = 2) ∨
      (i = .stPreDec r b ∧ base = some (b, s.reg b - 4) ∧ clears = false ∧ len = 2) ∨
      (i = .sthInc r b ∧ base = some (b, s.reg b + 2) ∧ clears = false ∧ len = 2) ∨
      (i = .unlock r b ∧ base = none ∧ clears = true ∧ len = 2) ∨
      (i ∈ [Instr.bset p x b, .bclr p x b] ∧ base = none ∧ clears = true ∧ len = 4) →
      ∀ (a : Word) (n : Nat) (vs : List (Option Word)), dataAccess i s = some (a, n, vs) → a.toNat % n = 0 →
        s.backed a n = true → Completes i s fun t =>
          (∀ (q : Reg) (v : Word), base = some (q, v) → t.reg q = v) ∧ RegsKeptBut (base.elim [] fun q => [q.1]) s t ∧
          KeepsBut [.mem, .lock, .devices] s t ∧ t.lock = (s.lock && !clears) ∧ t.pc = s.pc + len) ∧
    ∀ (d r : Reg) (x : BitVec 16) (a : Word) (len : Word) (i8 u8 i16 u16 w : Instr),
      (a = s.reg r ∧ len = 2 ∧ i8 = .ldb d r ∧ u8 = .ldub d r ∧ i16 = .ldh d r ∧ u16 = .lduh d r ∧ w = .ld d r) ∨
      (a = s.reg r + x.signExtend 32 ∧ len = 4 ∧ i8 = .ldbDisp d x r ∧ u8 = .ldubDisp d x r ∧ i16 = .ldhDisp d x r ∧
        u16 = .lduhDisp d x r ∧ w = .ldDisp d x r) →
      (s.backed a 1 = true →
        WritesReg i8 s d ((s.readByte 1 a).signExtend 32) len [.devices] ∧
        WritesReg u8 s d ((s.readByte 1 a).zeroExtend 32) len [.devices]) ∧
      (a.toNat % 2 = 0 → s.backed a 2 = true →
        WritesReg i16 s d ((s.readByte 2 a ++ s.readByte 2 (a + 1)).signExtend 32) len [.devices] ∧
        WritesReg u16 s d ((s.readByte 2 a ++ s.readByte 2 (a + 1)).zeroExtend 32) len [.devices]) ∧
      (a.toNat % 4 = 0 → s.backed a 4 = true →
        WritesReg w s d ((s.readByte 4 a ++ s.readByte 4 (a + 1)) ++ (s.readByte 4 (a + 2) ++ s.readByte 4 (a + 3))) len
          [.devices])

/-! ### Branches -/

/-- The conditional branches, on C and on registers: encoding, and the target or the next instruction (44_branch.md R254 to
R261, R264 to R267). -/
def Obligations.ConditionalBranchesGoToTheirTargetOrOn : Prop :=
  (∀ x : BitVec 8, Spelled8 0x7 0xC x (.bc8 x) ∧ Spelled8 0x7 0xD x (.bnc8 x)) ∧
  (∀ x : BitVec 24, Spelled24 0xF 0xC x (.bc24 x) ∧ Spelled24 0xF 0xD x (.bnc24 x)) ∧
  (∀ (a b : Reg) (x : BitVec 16), Spelled32 0xB a 0x0 b x (.beq a b x) ∧ Spelled32 0xB a 0x1 b x (.bne a b x)) ∧
  (∀ (r : Reg) (x : BitVec 16), Spelled32 0xB 0 0x8 r x (.beqz r x) ∧ Spelled32 0xB 0 0x9 r x (.bnez r x) ∧
    Spelled32 0xB 0 0xA r x (.bltz r x) ∧ Spelled32 0xB 0 0xB r x (.bgez r x) ∧ Spelled32 0xB 0 0xC r x (.blez r x) ∧
    Spelled32 0xB 0 0xD r x (.bgtz r x)) ∧
  (∀ (s : State) (x : BitVec 8) (y : BitVec 24) (near far : Word),
    near = BitVec.ofInt 32 ((s.pc &&& 0xFFFFFFFC).toNat + 4 * x.toInt) →
    far = BitVec.ofInt 32 ((s.pc &&& 0xFFFFFFFC).toNat + 4 * y.toInt) →
    GoesTo (.bc8 x) s (if s.psw.c = true then near else s.pc + 2) ∧
    GoesTo (.bnc8 x) s (if s.psw.c = false then near else s.pc + 2) ∧
    GoesTo (.bc24 y) s (if s.psw.c = true then far else s.pc + 4) ∧
    GoesTo (.bnc24 y) s (if s.psw.c = false then far else s.pc + 4)) ∧
  ∀ (s : State) (a b : Reg) (x : BitVec 16) (target : Word),
    target = BitVec.ofInt 32 ((s.pc &&& 0xFFFFFFFC).toNat + 4 * x.toInt) →
    GoesTo (.beq a b x) s (if s.reg a = s.reg b then target else s.pc + 4) ∧
    GoesTo (.bne a b x) s (if s.reg a = s.reg b then s.pc + 4 else target) ∧
    GoesTo (.beqz a x) s (if (s.reg a).toInt = 0 then target else s.pc + 4) ∧
    GoesTo (.bnez a x) s (if (s.reg a).toInt = 0 then s.pc + 4 else target) ∧
    GoesTo (.bltz a x) s (if (s.reg a).toInt < 0 then target else s.pc + 4) ∧
    GoesTo (.bgez a x) s (if 0 ≤ (s.reg a).toInt then target else s.pc + 4) ∧
    GoesTo (.blez a x) s (if (s.reg a).toInt ≤ 0 then target else s.pc + 4) ∧
    GoesTo (.bgtz a x) s (if 0 < (s.reg a).toInt then target else s.pc + 4)

/-- BRA, BL, JMP and NOP: encoding, target, return address (44_branch.md R262, R263, R268, R269, R271, R272), and the NOP
0xF000 of a low-order halfword (30_encoding.md R102). -/
def Obligations.BranchesCallsAndJumpsGoToTheirTarget : Prop :=
  (∀ x : BitVec 8, Spelled8 0x7 0xF x (.bra8 x) ∧ Spelled8 0x7 0xE x (.bl8 x)) ∧
  (∀ x : BitVec 24, Spelled24 0xF 0xF x (.bra24 x) ∧ Spelled24 0xF 0xE x (.bl24 x)) ∧
  (∀ r : Reg, Spelled16 0x1 0xF 0xC r (.jmp r)) ∧ Spelled16 0x7 0 0 0 .nop ∧ decodeLow 0xF000 = .instr .nopPar ∧
  ∀ (s : State) (x : BitVec 8) (y : BitVec 24) (r : Reg) (near far : Word),
    near = BitVec.ofInt 32 ((s.pc &&& 0xFFFFFFFC).toNat + 4 * x.toInt) →
    far = BitVec.ofInt 32 ((s.pc &&& 0xFFFFFFFC).toNat + 4 * y.toInt) →
    GoesTo (.bra8 x) s near ∧ GoesTo (.bra24 y) s far ∧ GoesTo (.jmp r) s (s.reg r &&& 0xFFFFFFFC) ∧
    GoesTo .nop s (s.pc + 2) ∧ GoesTo .nopPar s (s.pc + 2) ∧
    (∀ (i : Instr) (target : Word), (i = .bl8 x ∧ target = near ∨ i = .bl24 y ∧ target = far) →
      Completes i s fun t =>
        t.reg 14 = (s.pc &&& 0xFFFFFFFC) + 4 ∧ RegsKeptBut [14] s t ∧ KeepsBut [] s t ∧ t.pc = target)

/-- JL goes to the word its register names and leaves the return address in R14 (44_branch.md R270). That JL R14 goes to the
old R14 is the spec's decision D13 (log entry 20). -/
def Obligations.JlReadsItsTargetThenLinks : Prop :=
  (∀ r : Reg, Spelled16 0x1 0xE 0xC r (.jl r)) ∧
  ∀ (s : State) (r : Reg), Completes (.jl r) s fun t =>
    t.reg 14 = (s.pc &&& 0xFFFFFFFC) + 4 ∧ RegsKeptBut [14] s t ∧ KeepsBut [] s t ∧ t.pc = s.reg r &&& 0xFFFFFFFC

/-! ### Exceptions, interrupts, reset -/

/-- TRAP saves pc + 4 and SM, IE, C, clears IE and C, keeps SM, and goes to the entry of its number
(45_eit_instructions.md R280). Where the entries lie is the spec's decision D2 (log entry 10). -/
def Obligations.TrapSavesAndEntersItsVector : Prop :=
  (∀ n : BitVec 4, Spelled16 0x1 0 0xF n (.trap n)) ∧
  ∀ (s : State) (n : BitVec 4), s.pc.getLsbD 0 = false →
    Completes (.trap n) s fun t =>
      t.bpc = s.pc + 4 ∧ t.psw.bsm = s.psw.sm ∧ t.psw.bie = s.psw.ie ∧ t.psw.bc = s.psw.c ∧
      t.psw.sm = s.psw.sm ∧ t.psw.ie = false ∧ t.psw.c = false ∧
      t.pc = Config.vecTrapBase + 4 * BitVec.ofNat 32 n.toNat ∧
      BanksKept s t ∧ KeepsBut [.c, .smIe, .backup, .bpc] s t

/-- RTE restores SM, IE, C from the backup bits and goes to the word that BPC names; of the backup bits and BPC it promises
only that bit 0 of BPC is 0 (45_eit_instructions.md R281). -/
def Obligations.RteRestoresAndReturns : Prop :=
  Spelled16 0x1 0 0xD 6 .rte ∧
  ∀ s : State, Completes .rte s fun t =>
    t.psw.sm = s.psw.bsm ∧ t.psw.ie = s.psw.bie ∧ t.psw.c = s.psw.bc ∧ t.pc = s.bpc &&& 0xFFFFFFFC ∧
    t.bpc.getLsbD 0 = false ∧ BanksKept s t ∧ KeepsBut [.c, .smIe, .backup, .bpc] s t

/-- What an entry for AE, FPE or an external interrupt saves and changes (60_exceptions.md R405 to R408, R416). The sequence
for these events, what BPC holds and the vectors are the spec's decisions D2, D3 and D4 (log entries 10, 11, 12). -/
def Obligations.ExceptionEntrySavesAndEnters : Prop :=
  ∀ s : State, s.pc.getLsbD 0 = false →
    (∀ e : EitEvent,
      (s.eitEntry e).psw.bsm = s.psw.sm ∧ (s.eitEntry e).psw.bie = s.psw.ie ∧ (s.eitEntry e).psw.bc = s.psw.c ∧
      (s.eitEntry e).psw.ie = false ∧ (s.eitEntry e).psw.c = false ∧
      (e ≠ .ei → (s.eitEntry e).psw.sm = s.psw.sm) ∧
      BanksKept s (s.eitEntry e) ∧ KeepsBut [.c, .smIe, .backup, .bpc] s (s.eitEntry e)) ∧
    (s.eitEntry .ae).bpc = s.pc ∧ (s.eitEntry .ae).pc = 0x30 ∧
    (s.eitEntry .fpe).bpc = s.pc + 4 ∧ (s.eitEntry .fpe).pc = 0x90 ∧
    (s.eitEntry .ei).bpc = s.pc ∧ (s.eitEntry .ei).pc = 0x80 ∧ (s.eitEntry .ei).psw.sm = false

/-- An external interrupt is taken instead of the instruction exactly when it is requested, IE = 1 and the program counter is
at a word boundary (60_exceptions.md R421, R422): the spec's decision D8 (log entry 16). What the entry saves and changes and
where it goes are the spec's decisions D3, D4 and D2 (log entries 11, 12 and 10); that the number of the next draw advances by
one is the model's own choice (log entry 32). -/
def Obligations.AnInterruptIsTakenAtAWordBoundaryOnly : Prop :=
  ∀ s : State, s.resetReq = false →
    (s.extInt = true ∧ s.psw.ie = true ∧ s.pc.toNat % 4 = 0 →
      ∃ t : State, step s = .next t ∧ t.pc = 0x80 ∧ t.bpc = s.pc ∧ t.psw.bsm = s.psw.sm ∧ t.psw.bie = true ∧
        t.psw.bc = s.psw.c ∧ t.psw.sm = false ∧ t.psw.ie = false ∧ t.psw.c = false ∧ BanksKept s t ∧
        KeepsBut [.c, .smIe, .backup, .bpc] s t) ∧
    (¬ (s.extInt = true ∧ s.psw.ie = true ∧ s.pc.toNat % 4 = 0) →
      ∀ i : Instr, s.pc.getLsbD 0 = false → s.fetchBacked = true → s.decodeAt = .instr i →
        ∀ t : State, exec i s = .next t → step s = .next { t with drawIndex := t.drawIndex + 1 })

/-- Reset overrides everything, from any state (60_exceptions.md R430, 70_reset_and_hazards.md R450): SM, IE, C are 0, FPSR is
H'0000 0100, CBR reads 0, the PC is 0 and the LOCK bit is 0 (the last by the spec's decision D9, log entry 6), with nothing
pending; the same holds of the machine after reset release. Memory and the address map kept over a reset are the model's choice
(log entry 17). -/
def Obligations.ResetGivesTheValuesTheSpecStates : Prop :=
  (∀ s : State, s.resetReq = true → ∃ t : State, step s = .next t ∧ t.resetReq = false ∧
    t.psw.sm = false ∧ t.psw.ie = false ∧ t.psw.c = false ∧ t.readCR 7 = some 0x100 ∧ t.readCR 1 = some 0 ∧
    t.pc = 0 ∧ t.lock = false ∧ t.queue = [] ∧ t.bpc.getLsbD 0 = false ∧ t.mem = s.mem ∧
    t.memMap = s.memMap) ∧
  State.reset.psw.sm = false ∧ State.reset.psw.ie = false ∧ State.reset.psw.c = false ∧
  State.reset.readCR 7 = some 0x100 ∧ State.reset.readCR 1 = some 0 ∧ State.reset.pc = 0 ∧ State.reset.lock = false

/-! ### DSP -/

/-- The multiplications into the accumulator: encoding, and the low 56 bits of the exact value (46_dsp.md R292 to R295). The
halfwords are named by what they are: a word is its high halfword, signed, times 2^16 plus its low halfword, unsigned. -/
def Obligations.MultipliesFillTheAccumulator : Prop :=
  (∀ a b : Reg, Spelled16 0x3 a 0x0 b (.mulhi a b) ∧ Spelled16 0x3 a 0x1 b (.mullo a b) ∧
    Spelled16 0x3 a 0x2 b (.mulwhi a b) ∧ Spelled16 0x3 a 0x3 b (.mulwlo a b)) ∧
  ∀ (s : State) (a b : Reg) (x y xh xl yh yl : Int),
    x = (s.reg a).toInt → y = (s.reg b).toInt →
    x = xh * 2 ^ 16 + ((s.reg a).extractLsb' 0 16).toNat → xl = ((s.reg a).extractLsb' 0 16).toInt →
    y = yh * 2 ^ 16 + ((s.reg b).extractLsb' 0 16).toNat → yl = ((s.reg b).extractLsb' 0 16).toInt →
    ∀ (i : Instr) (v : Int),
      (i = .mulhi a b ∧ v = xh * yh * 2 ^ 16) ∨ (i = .mullo a b ∧ v = xl * yl * 2 ^ 16) ∨
      (i = .mulwhi a b ∧ v = x * yh) ∨ (i = .mulwlo a b ∧ v = x * yl) →
      Completes i s fun t => t.acc = BitVec.ofInt 56 v ∧ RegsKeptBut [] s t ∧ KeepsBut [.acc] s t ∧ t.pc = s.pc + 2

/-- The multiply-accumulate instructions: encoding, and the sum's low 56 bits (46_dsp.md R296 to R299). That a sum outside 56
bits wraps is the spec's decision D31 (46_dsp.md R308; log entry 29). -/
def Obligations.MultiplyAccumulatesAddToTheAccumulator : Prop :=
  (∀ a b : Reg, Spelled16 0x3 a 0x4 b (.machi a b) ∧ Spelled16 0x3 a 0x5 b (.maclo a b) ∧
    Spelled16 0x3 a 0x6 b (.macwhi a b) ∧ Spelled16 0x3 a 0x7 b (.macwlo a b)) ∧
  ∀ (s : State) (a b : Reg) (x y xh xl yh yl : Int),
    x = (s.reg a).toInt → y = (s.reg b).toInt →
    x = xh * 2 ^ 16 + ((s.reg a).extractLsb' 0 16).toNat → xl = ((s.reg a).extractLsb' 0 16).toInt →
    y = yh * 2 ^ 16 + ((s.reg b).extractLsb' 0 16).toNat → yl = ((s.reg b).extractLsb' 0 16).toInt →
    ∀ (i : Instr) (v : Int),
      (i = .machi a b ∧ v = xh * yh * 2 ^ 16) ∨ (i = .maclo a b ∧ v = xl * yl * 2 ^ 16) ∨
      (i = .macwhi a b ∧ v = x * yh) ∨ (i = .macwlo a b ∧ v = x * yl) →
      Completes i s fun t => t.acc = BitVec.ofInt 56 (s.acc.toInt + v) ∧ RegsKeptBut [] s t ∧ KeepsBut [.acc] s t ∧
        t.pc = s.pc + 2

/-- The transfers between the accumulator and the registers: encoding, the three windows of the sign-extended 64-bit view, the
two halves written (46_dsp.md R300 to R304). RAC and RACH: encoding; twice the accumulator plus a half is rounded down to a
multiple of 2^16 or 2^32 and saturated (46_dsp.md R305, R306). -/
def Obligations.AccumulatorTransfersAndRoundings : Prop :=
  (∀ r : Reg, Spelled16 0x5 r 0xF 0 (.mvfachi r) ∧ Spelled16 0x5 r 0xF 1 (.mvfaclo r) ∧ Spelled16 0x5 r 0xF 2 (.mvfacmi r) ∧
    Spelled16 0x5 r 0x7 0 (.mvtachi r) ∧ Spelled16 0x5 r 0x7 1 (.mvtaclo r)) ∧
  Spelled16 0x5 0 0x9 0 .rac ∧ Spelled16 0x5 0 0x8 0 .rach ∧
  (∀ (s : State) (r : Reg),
    WritesReg (.mvfachi r) s r (BitVec.ofInt 32 (s.acc.toInt / 2 ^ 32)) 2 ∧
    WritesReg (.mvfaclo r) s r (BitVec.ofInt 32 s.acc.toInt) 2 ∧
    WritesReg (.mvfacmi r) s r (BitVec.ofInt 32 (s.acc.toInt / 2 ^ 16)) 2 ∧
    (Completes (.mvtachi r) s fun t =>
      t.acc.toNat = (s.reg r).toNat % 2 ^ 24 * 2 ^ 32 + s.acc.toNat % 2 ^ 32 ∧ RegsKeptBut [] s t ∧
      KeepsBut [.acc] s t ∧ t.pc = s.pc + 2) ∧
    (Completes (.mvtaclo r) s fun t =>
      t.acc.toNat = s.acc.toNat / 2 ^ 32 * 2 ^ 32 + (s.reg r).toNat ∧ RegsKeptBut [] s t ∧
      KeepsBut [.acc] s t ∧ t.pc = s.pc + 2)) ∧
  ∀ (s : State) (i : Instr) (k : Nat) (t v : Int),
    (i = .rac ∧ k = 16 ∨ i = .rach ∧ k = 32) → t = s.acc.toInt * 2 + 2 ^ (k - 1) →
    ((2 ^ 47 - 2 ^ k < t ∧ v = 2 ^ 47 - 2 ^ k) ∨ (t < -2 ^ 47 ∧ v = -2 ^ 47) ∨
      (-2 ^ 47 ≤ t ∧ t ≤ 2 ^ 47 - 2 ^ k ∧ 2 ^ k ∣ v ∧ v ≤ t ∧ t < v + 2 ^ k)) →
    Completes i s fun u => u.acc = BitVec.ofInt 56 v ∧ u.acc.toInt = v ∧ RegsKeptBut [] s u ∧ KeepsBut [.acc] s u ∧
      u.pc = s.pc + 2

/-! ### Bit operations -/

/-- BSET and BCLR on plain memory: encoding; one byte with one bit set or cleared, every other byte as before, and the LOCK bit
0 afterwards (49_bit_operation.md R390, R391). What a device sees is another statement's. -/
def Obligations.BsetAndBclrChangeOneBitOfAByte : Prop :=
  (∀ (p : BitVec 3) (x : BitVec 16) (r : Reg), Spelled32 0xA (0#1 ++ p) 0x6 r x (.bset p x r) ∧
    Spelled32 0xA (0#1 ++ p) 0x7 r x (.bclr p x r)) ∧
  ∀ (s : State) (p : BitVec 3) (x : BitVec 16) (r : Reg), Memory.wf s.mem = true →
    ∀ (i : Instr) (bit : Bool), (i = .bset p x r ∧ bit = true ∨ i = .bclr p x r ∧ bit = false) →
      s.ramAt (s.reg r + x.signExtend 32) 1 = true →
      Completes i s fun t =>
        (∀ n : Nat, n < 8 → (byteAt t (s.reg r + x.signExtend 32)).getLsbD n =
          if n = 7 - p.toNat then bit else (byteAt s (s.reg r + x.signExtend 32)).getLsbD n) ∧
        MemKeptBut (s.reg r + x.signExtend 32) 1 s t ∧ t.lock = false ∧ RegsKeptBut [] s t ∧
        KeepsBut [.mem, .lock] s t ∧ t.pc = s.pc + 4

/-- BTST: encoding; C is the bit of the register's low byte that bitpos names from its most significant end
(49_bit_operation.md R392). -/
def Obligations.BtstCopiesABitToTheConditionBit : Prop :=
  (∀ (p : BitVec 3) (r : Reg), Spelled16 0x0 (0#1 ++ p) 0xF r (.btst p r)) ∧
  ∀ (s : State) (p : BitVec 3) (r : Reg), WritesC (.btst p r) s (decide ((s.reg r).toNat / 2 ^ (7 - p.toNat) % 2 = 1)) 2

/-- SETPSW sets and CLRPSW clears SM, IE and C where the immediate has a 1, and nothing else (49_bit_operation.md R394, R395).
That the immediate's bits b2 to b6 are ignored is the spec's decision D14 (log entry 21). -/
def Obligations.SetpswAndClrpswReachSmIeAndC : Prop :=
  ∀ (s : State) (x : BitVec 8),
    Spelled8 0x7 0x1 x (.setpsw x) ∧ Spelled8 0x7 0x2 x (.clrpsw x) ∧
    (Completes (.setpsw x) s fun t =>
      t.psw.sm = (s.psw.sm || x.getLsbD 7) ∧ t.psw.ie = (s.psw.ie || x.getLsbD 6) ∧ t.psw.c = (s.psw.c || x.getLsbD 0) ∧
      BanksKept s t ∧ KeepsBut [.c, .smIe] s t ∧ t.pc = s.pc + 2) ∧
    (Completes (.clrpsw x) s fun t =>
      t.psw.sm = (s.psw.sm && !x.getLsbD 7) ∧ t.psw.ie = (s.psw.ie && !x.getLsbD 6) ∧ t.psw.c = (s.psw.c && !x.getLsbD 0) ∧
      BanksKept s t ∧ KeepsBut [.c, .smIe] s t ∧ t.pc = s.pc + 2)

/-! ### Floating point -/

/-- With every exception masked and DN = 1 each of the twelve FPU operation instructions completes: it writes its
destination and the FPSR's cause bits and flags, never detects UIPL, and changes nothing else (47_float_arith.md R321, R327,
R335). That the cause bits record masked exceptions too is the spec's decision D16 (log entry 22). -/
def Obligations.MaskedFpuOperationsComplete : Prop :=
  ∀ (s : State) (d a b : Reg), s.fpsr.dn = true → s.fpsr.ex = false → s.fpsr.eu = false → s.fpsr.ez = false →
    s.fpsr.eo = false → s.fpsr.ev = false →
    ∀ i ∈ fpuOperations d a b, Completes i s fun t =>
      t.fpsr = fpsrAfter s.fpsr t.fpsr.cause ∧ t.fpsr.cause.ce = false ∧ RegsKeptBut [d] s t ∧ KeepsBut [.fpsr] s t ∧
      t.pc = s.pc + 4

/-- An FPU operation instruction ends in one of two ways (47_float_arith.md R327, 60_exceptions.md R411): what it detects
includes UIPL or an enabled exception, and it enters FPE having written the cause bits only; or it raises the flags of what it
detects, writes its destination and goes on. The entry for FPE is the spec's decision D3 (log entry 11), the cause bits of
masked exceptions its decision D16 (log entry 22). -/
def Obligations.FpuOperationsEndInFpeOrWriteTheirResult : Prop :=
  ∀ (s t : State) (d a b : Reg), ∀ i ∈ fpuOperations d a b, exec i s = .next t →
    ((t.fpsr.cause.ce || (t.fpsr.cause.cx && s.fpsr.ex) || (t.fpsr.cause.cu && s.fpsr.eu) ||
        (t.fpsr.cause.cz && s.fpsr.ez) || (t.fpsr.cause.co && s.fpsr.eo) || (t.fpsr.cause.cv && s.fpsr.ev)) = true →
      t = ({ s with fpsr := { s.fpsr with cause := t.fpsr.cause } } : State).eitEntry .fpe) ∧
    ((t.fpsr.cause.ce || (t.fpsr.cause.cx && s.fpsr.ex) || (t.fpsr.cause.cu && s.fpsr.eu) ||
        (t.fpsr.cause.cz && s.fpsr.ez) || (t.fpsr.cause.co && s.fpsr.eo) || (t.fpsr.cause.cv && s.fpsr.ev)) = false →
      t.fpsr = fpsrAfter s.fpsr t.fpsr.cause ∧ RegsKeptBut [d] s t ∧ KeepsBut [.fpsr] s t ∧ t.pc = s.pc + 4)

/-- A rounded result brackets the exact value as its rounding mode says (47_float_arith.md R323, R336): it is less than one
unit of the last place away; toward zero it is not larger, toward plus and minus infinity it lies on that side, to nearest it is
at most half a unit away, and even where it is exactly half a unit away; and it is inexact exactly when it differs. The exact
value is `num / den`, the result a multiple of 2^-149. The directed modes are IEEE 754's, which the spec takes from general
knowledge (log entry 24). -/
def Obligations.RoundedResultsBracketTheExactValue : Prop :=
  ∀ (f : Fpsr) (rnd : RoundMode) (neg : Bool) (num den : Nat), 0 < den → den ≤ num * 2 ^ 126 →
    (fpFinish f rnd neg num den).causes.co = false →
    let o := fpFinish f rnd neg num den
    let got := fpMag o.value * den
    let want := num * 2 ^ 149
    fpSign o.value = neg ∧ 1 ≤ fpExp o.value ∧ fpExp o.value ≤ 254 ∧
    o.causes = { FpCauses.none with cx := decide (got ≠ want) } ∧
    got < want + den * 2 ^ (fpExp o.value - 1) ∧ want < got + den * 2 ^ (fpExp o.value - 1) ∧
    (rnd = .zero → got ≤ want) ∧ (rnd = .plusInf → if neg then got ≤ want else want ≤ got) ∧
    (rnd = .minusInf → if neg then want ≤ got else got ≤ want) ∧
    (rnd = .nearest → 2 * got ≤ 2 * want + den * 2 ^ (fpExp o.value - 1) ∧ 2 * want ≤ 2 * got + den * 2 ^ (fpExp o.value - 1)) ∧
    (rnd = .nearest →
      2 * got = 2 * want + den * 2 ^ (fpExp o.value - 1) ∨ 2 * want = 2 * got + den * 2 ^ (fpExp o.value - 1) →
      o.value.getLsbD 0 = false)

/-- When a result overflows (47_float_arith.md R329): toward zero from 2^128 on, to nearest from half a unit above the largest
number on, away from zero from just above it; and what is then delivered with EO = 0. That the test follows the rounding is the
spec's decision D19 (log entry 24). -/
def Obligations.OverflowBeginsAboveTheLargestNumber : Prop :=
  ∀ (f : Fpsr) (rnd : RoundMode) (neg : Bool) (num den : Nat), 0 < den → den ≤ num * 2 ^ 126 →
    let o := fpFinish f rnd neg num den
    let away := rnd = .plusInf ∧ neg = false ∨ rnd = .minusInf ∧ neg = true
    (rnd = .nearest → (o.causes.co = true ↔ den * (2 ^ 128 - 2 ^ 103) ≤ num)) ∧
    (away → (o.causes.co = true ↔ den * (2 ^ 128 - 2 ^ 104) < num)) ∧
    (rnd ≠ .nearest → ¬ away → (o.causes.co = true ↔ den * 2 ^ 128 ≤ num)) ∧
    (o.causes.co = true →
      o.causes = { FpCauses.none with co := true, cx := !f.eo } ∧
      (f.rm = .nearest → o.value = if neg then 0xFF800000 else 0x7F800000) ∧
      (f.rm = .zero → o.value = if neg then 0xFF7FFFFF else 0x7F7FFFFF) ∧
      (f.rm = .plusInf → o.value = if neg then 0xFF7FFFFF else 0x7F800000) ∧
      (f.rm = .minusInf → o.value = if neg then 0xFF800000 else 0x7F7FFFFF))

/-- FADD, FSUB, FMUL and FDIV: encoding; of zeros and normalized numbers the exact result, then the arithmetic finish; where
what that detects includes UIPL or an enabled exception, FPE with exactly that in the cause bits (47_float_arith.md R340, R342,
R344, R346, R337; the end of the operation R326, R327). Values are in units of 2^-149. That an exact zero sum is -0 only when
rounding toward minus infinity is, for operands that are not zeros, the spec's decision D22 (log entry 24); that the cause bits
record masked exceptions too and the entry of FPE are its decisions D16 and D3 (log entries 22 and 11). -/
def Obligations.ArithmeticOnNumbersIsExactThenFinished : Prop :=
  (∀ d a b : Reg, Spelled32 0xD a 0 b ((0x0#4 ++ d) ++ 0x00#8) (.fadd d a b) ∧
    Spelled32 0xD a 0 b ((0x0#4 ++ d) ++ 0x40#8) (.fsub d a b) ∧
    Spelled32 0xD a 0 b ((0x1#4 ++ d) ++ 0x00#8) (.fmul d a b) ∧
    Spelled32 0xD a 0 b ((0x2#4 ++ d) ++ 0x00#8) (.fdiv d a b)) ∧
  ∀ (s : State) (d ra rb : Reg) (a b : Word), a = s.reg ra → b = s.reg rb →
    (isZero a = true ∨ (1 ≤ fpExp a ∧ fpExp a ≤ 254)) → (isZero b = true ∨ (1 ≤ fpExp b ∧ fpExp b ≤ 254)) →
    ∀ (i : Instr) (r : Int) (o : FpOutcome),
      ((i = .fadd d ra rb ∧ r = fpVal a + fpVal b ∨ i = .fsub d ra rb ∧ r = fpVal a - fpVal b) ∧
        (r ≠ 0 → o = fpFinish s.fpsr s.fpsr.rm (decide (r < 0)) r.natAbs (2 ^ 149)) ∧
        (r = 0 → o.causes = FpCauses.none ∧
          (∀ z : Bool, isZero a = true → isZero b = true → fpSign a = z →
            (fpSign b = z ∧ i = .fadd d ra rb ∨ fpSign b = !z ∧ i = .fsub d ra rb) →
            o.value = if z then 0x80000000 else 0) ∧
          ((isZero a = false ∨ i = .fadd d ra rb ∧ fpSign a ≠ fpSign b ∨ i = .fsub d ra rb ∧ fpSign a = fpSign b) →
            o.value = if s.fpsr.rm = .minusInf then 0x80000000 else 0))) ∨
      (i = .fmul d ra rb ∧
        (if isZero a = true ∨ isZero b = true then
          o = { causes := FpCauses.none, value := if fpSign a = fpSign b then 0 else 0x80000000 }
        else o = fpFinish s.fpsr s.fpsr.rm (fpSign a != fpSign b) (fpMag a * fpMag b) (2 ^ 298))) ∨
      (i = .fdiv d ra rb ∧ isZero b = false ∧
        (if isZero a = true then
          o = { causes := FpCauses.none, value := if fpSign a = fpSign b then 0 else 0x80000000 }
        else o = fpFinish s.fpsr s.fpsr.rm (fpSign a != fpSign b) (fpMag a) (fpMag b))) →
      (s.fpsr.triggers o.causes = false →
        WritesReg i s d o.value 4 [.fpsr] ∧ Completes i s fun t => t.fpsr = fpsrAfter s.fpsr o.causes) ∧
      (s.fpsr.triggers o.causes = true →
        exec i s = .next (({ s with fpsr := { s.fpsr with cause := o.causes } } : State).eitEntry .fpe))

/-- What FADD, FSUB, FMUL and FDIV do with NaNs (47_float_arith.md R325, R333, R334): a QNaN without an SNaN is delivered with no
exception, whatever EV is; an SNaN is an invalid operation, converted to a QNaN with EV = 0, FPE with EV = 1; and the NaN of an
invalid operation on other operands. That the cause bits record masked exceptions too and the entry of FPE are the spec's
decisions D16 and D3 (log entries 22 and 11); that an SNaN beside a denormalized operand with DN = 0 is a NaN case is its
decision D17 (log entry 23). -/
def Obligations.NanOperandsDeliverTheQnanOfTheTable : Prop :=
  ∀ (s : State) (d ra rb : Reg) (a b : Word), a = s.reg ra → b = s.reg rb →
    ∀ i ∈ [Instr.fadd d ra rb, .fsub d ra rb, .fmul d ra rb, .fdiv d ra rb],
      (isSnan a = true → isSnan b = false → s.fpsr.ev = false →
        WritesReg i s d (a ||| 0x00400000) 4 [.fpsr] ∧ Completes i s fun t => t.fpsr = fpsrAfter s.fpsr ivld) ∧
      (isSnan b = true → s.fpsr.ev = false →
        WritesReg i s d (b ||| 0x00400000) 4 [.fpsr] ∧ Completes i s fun t => t.fpsr = fpsrAfter s.fpsr ivld) ∧
      (isSnan a = true ∨ isSnan b = true → s.fpsr.ev = true →
        exec i s = .next (({ s with fpsr := { s.fpsr with cause := ivld } } : State).eitEntry .fpe)) ∧
      (isSnan a = false → isQnan b = true →
        WritesReg i s d b 4 [.fpsr] ∧ Completes i s fun t => t.fpsr = fpsrAfter s.fpsr FpCauses.none) ∧
      (isSnan b = false → isQnan a = true → isQnan b = false →
        WritesReg i s d a 4 [.fpsr] ∧ Completes i s fun t => t.fpsr = fpsrAfter s.fpsr FpCauses.none) ∧
      (isNan a = false → isNan b = false → s.fpsr.ev = false →
        ∀ t : State, exec i s = .next t → t.fpsr.cause.cv = true → t.reg d = 0x7FFFFFFF)

/-- FADD, FSUB, FMUL and FDIV with an infinite operand and no NaN (47_float_arith.md R333, R341, R343, R345, R347): an infinity
or, for a finite number divided by one, a zero, with no exception, whatever is enabled; and the invalid operations, infinity
minus infinity, zero times infinity, infinity by infinity, which give 0x7FFFFFFF with EV = 0 and enter FPE with EV = 1. With DN =
1 a denormalized operand counts as zero; with DN = 0 there is none here. That the cause bits record masked exceptions too and the
entry of FPE are the spec's decisions D16 and D3 (log entries 22 and 11). -/
def Obligations.InfiniteOperandsFollowTheTables : Prop :=
  ∀ (s : State) (d ra rb : Reg) (a b : Word), a = s.reg ra → b = s.reg rb → isNan a = false → isNan b = false →
    (s.fpsr.dn = false → isDenormal a = false ∧ isDenormal b = false) →
    ∀ (neg : Bool) (i : Instr), neg = (fpSign a != fpSign b) →
      (∀ v : Word,
        (i = .fadd d ra rb ∧ isInfinite a = true ∧ (isInfinite b = true → fpSign a = fpSign b) ∧ v = a) ∨
        (i = .fadd d ra rb ∧ isInfinite b = true ∧ (isInfinite a = true → fpSign a = fpSign b) ∧ v = b) ∨
        (i = .fsub d ra rb ∧ isInfinite a = true ∧ (isInfinite b = true → fpSign a ≠ fpSign b) ∧ v = a) ∨
        (i = .fsub d ra rb ∧ isInfinite b = true ∧ (isInfinite a = true → fpSign a ≠ fpSign b) ∧ v = b ^^^ 0x80000000) ∨
        (i = .fmul d ra rb ∧ (isInfinite a = true ∧ (isInfinite b = true ∨ 1 ≤ fpExp b) ∨
            isInfinite b = true ∧ 1 ≤ fpExp a) ∧ v = if neg then 0xFF800000 else 0x7F800000) ∨
        (i = .fdiv d ra rb ∧ isInfinite a = true ∧ isInfinite b = false ∧ v = if neg then 0xFF800000 else 0x7F800000) ∨
        (i = .fdiv d ra rb ∧ isInfinite a = false ∧ isInfinite b = true ∧ v = if neg then 0x80000000 else 0) →
        WritesReg i s d v 4 [.fpsr] ∧ Completes i s fun t => t.fpsr = fpsrAfter s.fpsr FpCauses.none) ∧
      ((i = .fadd d ra rb ∧ isInfinite a = true ∧ isInfinite b = true ∧ fpSign a ≠ fpSign b) ∨
        (i = .fsub d ra rb ∧ isInfinite a = true ∧ isInfinite b = true ∧ fpSign a = fpSign b) ∨
        (i = .fmul d ra rb ∧ (isInfinite a = true ∧ fpExp b = 0 ∨ fpExp a = 0 ∧ isInfinite b = true)) ∨
        (i = .fdiv d ra rb ∧ isInfinite a = true ∧ isInfinite b = true) →
        (s.fpsr.ev = false →
          WritesReg i s d 0x7FFFFFFF 4 [.fpsr] ∧ Completes i s fun t => t.fpsr = fpsrAfter s.fpsr ivld) ∧
        (s.fpsr.ev = true →
          exec i s = .next (({ s with fpsr := { s.fpsr with cause := ivld } } : State).eitEntry .fpe)))

/-- FDIV by zero (47_float_arith.md R332): a finite non-zero dividend gives an infinity of the quotient's sign with DIV0, or
enters FPE when EZ = 1; a zero dividend is an invalid operation, FPE when EV = 1 (R333); an infinite dividend gives an infinity
and no exception. With DN = 1 a denormalized divisor or dividend counts as zero (R322). The cause bits and the entry of FPE are
decisions D16 and D3 (log entries 22 and 11). -/
def Obligations.DivisionByZeroFollowsTheDividend : Prop :=
  ∀ (s : State) (d ra rb : Reg) (a b : Word), a = s.reg ra → b = s.reg rb →
    (isZero b = true ∨ isDenormal b = true ∧ s.fpsr.dn = true) →
    ∀ inf : Word, inf = (if fpSign a = fpSign b then 0x7F800000 else 0xFF800000) →
    (1 ≤ fpExp a → fpExp a ≤ 254 →
      (s.fpsr.ez = false → WritesReg (.fdiv d ra rb) s d inf 4 [.fpsr] ∧
        Completes (.fdiv d ra rb) s fun t => t.fpsr = fpsrAfter s.fpsr div0) ∧
      (s.fpsr.ez = true →
        exec (.fdiv d ra rb) s =
          .next (({ s with fpsr := { s.fpsr with cause := div0 } } : State).eitEntry .fpe))) ∧
    (isZero a = true ∨ isDenormal a = true ∧ s.fpsr.dn = true →
      (s.fpsr.ev = false → WritesReg (.fdiv d ra rb) s d 0x7FFFFFFF 4 [.fpsr] ∧
        Completes (.fdiv d ra rb) s fun t => t.fpsr = fpsrAfter s.fpsr ivld) ∧
      (s.fpsr.ev = true →
        exec (.fdiv d ra rb) s =
          .next (({ s with fpsr := { s.fpsr with cause := ivld } } : State).eitEntry .fpe))) ∧
    (isInfinite a = true → WritesReg (.fdiv d ra rb) s d inf 4 [.fpsr] ∧
      Completes (.fdiv d ra rb) s fun t => t.fpsr = fpsrAfter s.fpsr FpCauses.none)

/-- A result below the normalized numbers (47_float_arith.md R331, R336): with EU = 1 UDF, with EU = 0 and DN = 0 UDF and UIPL,
both FPE, with EU = 0 and DN = 1 a zero of the result's sign with UDF. It is stated of the arithmetic finish for every exact
result, and of FADD, FSUB, FMUL and FDIV of normalized numbers, with values in units of 2^-149. That underflow is judged before
rounding is the spec's decision D18 (log entry 24). The cause bits and the entry of FPE are decisions D16 and D3 (log entries 22
and 11). -/
def Obligations.UnderflowHasThreeOutcomes : Prop :=
  (∀ (f : Fpsr) (rnd : RoundMode) (neg : Bool) (num den : Nat), 0 < num → num * 2 ^ 126 < den →
    let o := fpFinish f rnd neg num den
    (f.eu = true → o.causes = { FpCauses.none with cu := true }) ∧
    (f.eu = false → f.dn = false → o.causes = { FpCauses.none with cu := true, ce := true }) ∧
    (f.eu = false → f.dn = true →
      o.causes = { FpCauses.none with cu := true } ∧ o.value = if neg then 0x80000000 else 0)) ∧
  ∀ (s : State) (d ra rb : Reg) (a b : Word), a = s.reg ra → b = s.reg rb → 1 ≤ fpExp a → fpExp a ≤ 254 → 1 ≤ fpExp b →
    fpExp b ≤ 254 → ∀ (i : Instr) (r : Int) (neg : Bool),
      ((i = .fadd d ra rb ∧ r = fpVal a + fpVal b ∨ i = .fsub d ra rb ∧ r = fpVal a - fpVal b) ∧ r ≠ 0 ∧ r.natAbs < 2 ^ 23 ∧
          neg = decide (r < 0)) ∨
        ((i = .fmul d ra rb ∧ fpMag a * fpMag b < 2 ^ 172 ∨ i = .fdiv d ra rb ∧ fpMag a * 2 ^ 126 < fpMag b) ∧
          neg = (fpSign a != fpSign b)) →
      (s.fpsr.eu = true → exec i s =
        .next (({ s with fpsr := { s.fpsr with cause := { FpCauses.none with cu := true } } } : State).eitEntry .fpe)) ∧
      (s.fpsr.eu = false → s.fpsr.dn = false → exec i s =
        .next (({ s with fpsr := { s.fpsr with cause := { FpCauses.none with cu := true, ce := true } } } : State).eitEntry
          .fpe)) ∧
      (s.fpsr.eu = false → s.fpsr.dn = true →
        WritesReg i s d (if neg then 0x80000000 else 0) 4 [.fpsr] ∧
        Completes i s fun t => t.fpsr = fpsrAfter s.fpsr { FpCauses.none with cu := true })

/-- Denormalized operands (47_float_arith.md R322, R335): with DN = 0 and no NaN operand the two-operand instructions and
the compares enter FPE with UIPL alone; with DN = 1 a denormalized operand stands for the zero of its sign. That a NaN
operand comes first is, for an SNaN, the spec's decision D17 (log entry 23). The cause bits and the entry of FPE are
decisions D16 and D3 (log entries 22 and 11). -/
def Obligations.DenormalizedOperandsAreUnimplementedOrZero : Prop :=
  (∀ (s : State) (d a b : Reg), s.fpsr.dn = false → isNan (s.reg a) = false → isNan (s.reg b) = false →
    isDenormal (s.reg a) = true ∨ isDenormal (s.reg b) = true →
    ∀ i ∈ [Instr.fadd d a b, .fsub d a b, .fmul d a b, .fdiv d a b, .fcmp d a b, .fcmpe d a b],
      exec i s = .next (({ s with fpsr := { s.fpsr with cause := uipl } } : State).eitEntry .fpe)) ∧
  (∀ (s u : State) (d a b : Reg) (r : Reg), s.fpsr.dn = true → isDenormal (s.reg r) = true →
    r ≠ d → u = s.setReg r (s.reg r &&& 0x80000000) →
    ∀ mk ∈ [Instr.fadd, Instr.fsub, Instr.fmul, Instr.fdiv], ∀ t : State, exec (mk d a b) s = .next t →
      ∃ v : State, exec (mk d a b) u = .next v ∧ v.reg d = t.reg d ∧ v.fpsr = t.fpsr)

/-- FADD and FMUL do not depend on the order of their operands unless both are NaNs, and FSUB is FADD with the second operand's
sign inverted unless that operand is a NaN (47_float_arith.md R341, R343, R345). -/
def Obligations.FaddAndFmulCommuteAndFsubAddsTheNegation : Prop :=
  ∀ (s : State) (d a b : Reg),
    (¬ (isNan (s.reg a) = true ∧ isNan (s.reg b) = true) →
      exec (.fadd d a b) s = exec (.fadd d b a) s ∧ exec (.fmul d a b) s = exec (.fmul d b a) s) ∧
    (isNan (s.reg b) = false → ∀ (u t : State), a ≠ b → u = s.setReg b (s.reg b ^^^ 0x80000000) → d ≠ b →
      exec (.fsub d a b) s = .next t →
      ∃ v : State, exec (.fadd d a b) u = .next v ∧ v.reg d = t.reg d ∧ v.fpsr = t.fpsr)

/-- FMADD and FMSUB: encoding; FMADD is FMUL rounded toward zero followed by FADD in the rounding mode of the FPSR, and FMSUB is
that FMUL followed by FSUB, whatever RM, DN and the enables are, unless step 1 ends in EIT processing, the product overflows or
Rdest is a QNaN beside a NaN product (47_float_arith.md R350 to R352, R356, R359): the same result with the causes of both steps
together, or FPE with those causes where the second step enters it. That the cause bits record masked exceptions too and the
entry of FPE are the spec's decisions D16 and D3 (log entries 22 and 11), the carrying over to FMSUB its decision D21 (log
entry 26). -/
def Obligations.FusedFormsAreMultiplyThenAddWhenTruncating : Prop :=
  (∀ d a b : Reg, Spelled32 0xD a 0 b ((0x3#4 ++ d) ++ 0x00#8) (.fmadd d a b) ∧
    Spelled32 0xD a 0 b ((0x3#4 ++ d) ++ 0x40#8) (.fmsub d a b)) ∧
  ∀ (s p q t : State) (d a b x : Reg), x ≠ d →
    exec (.fmul x a b) { s with fpsr := { s.fpsr with rm := .zero } } = .next p →
    s.fpsr.triggers p.fpsr.cause = false → p.fpsr.cause.co = false → ¬ (isQnan (s.reg d) = true ∧ isNan (p.reg x) = true) →
    q = { p with fpsr := { p.fpsr with rm := s.fpsr.rm } } →
    ∀ (i : Instr) (e : FpCauses), e = p.fpsr.cause.union t.fpsr.cause →
      (i = .fmadd d a b ∧ exec (.fadd d d x) q = .next t ∨ i = .fmsub d a b ∧ exec (.fsub d d x) q = .next t) →
      (s.fpsr.triggers t.fpsr.cause = false →
        WritesReg i s d (t.reg d) 4 [.fpsr] ∧ Completes i s fun u => u.fpsr = fpsrAfter s.fpsr e) ∧
      (s.fpsr.triggers t.fpsr.cause = true →
        exec i s = .next (({ s with fpsr := { s.fpsr with cause := e } } : State).eitEntry .fpe))

/-- FMADD and FMSUB beside a step 1 that ends in EIT processing, and on NaNs (47_float_arith.md R353, R352 (1) to (3), R358).
Step 1 is FMUL rounded toward zero. Where it enters FPE, so do they, Rdest is unchanged, and a denormalized Rdest with DN = 0
adds UIPL and an SNaN in Rdest adds IVLD to the causes: the spec's decision D21 (log entry 26). Otherwise a QNaN in Rdest stays,
an SNaN in Rdest is converted, or enters FPE with EV = 1, and any other Rdest gives way to a NaN of step 1; the causes of step 1
are recorded too, masked ones by the spec's decision D16 (log entry 22). The entry of FPE is its decision D3 (log entry 11). -/
def Obligations.FusedFormsCheckRdestAndChooseTheirNan : Prop :=
  ∀ (s p : State) (d a b x : Reg), x ≠ d →
    exec (.fmul x a b) { s with fpsr := { s.fpsr with rm := .zero } } = .next p →
    ∀ i ∈ [Instr.fmadd d a b, .fmsub d a b],
      (s.fpsr.triggers p.fpsr.cause = true →
        exec i s = .next (({ s with fpsr := { s.fpsr with
          cause := p.fpsr.cause.union
            { FpCauses.none with ce := isDenormal (s.reg d) && !s.fpsr.dn, cv := isSnan (s.reg d) } } } : State).eitEntry
              .fpe)) ∧
      (s.fpsr.triggers p.fpsr.cause = false →
        (isQnan (s.reg d) = true →
          WritesReg i s d (s.reg d) 4 [.fpsr] ∧ Completes i s fun t => t.fpsr = fpsrAfter s.fpsr p.fpsr.cause) ∧
        (isSnan (s.reg d) = true → s.fpsr.ev = false →
          WritesReg i s d (s.reg d ||| 0x00400000) 4 [.fpsr] ∧
          Completes i s fun t => t.fpsr = fpsrAfter s.fpsr (p.fpsr.cause.union ivld)) ∧
        (isSnan (s.reg d) = true → s.fpsr.ev = true →
          exec i s = .next (({ s with fpsr := { s.fpsr with cause := p.fpsr.cause.union ivld } } : State).eitEntry .fpe)) ∧
        (isNan (s.reg d) = false → isNan (p.reg x) = true →
          WritesReg i s d (p.reg x) 4 [.fpsr] ∧ Completes i s fun t => t.fpsr = fpsrAfter s.fpsr p.fpsr.cause))

/-- FMADD and FMSUB after a masked overflow of the product (47_float_arith.md R354): the immediate value, chosen by RM and the
product's sign, replaces a zero or a number in Rdest, and a denormalized one with DN = 1; an infinity in Rdest stays, unless the
immediate value is the opposite infinity, which is an invalid operation; a denormalized Rdest with DN = 0 enters FPE with UIPL.
For FMSUB the immediate value has its sign inverted, by the spec's decision D21 (log entry 26). That the cause bits record masked
exceptions too and the entry of FPE are the spec's decisions D16 and D3 (log entries 22 and 11). -/
def Obligations.FusedFormsReplaceRdestAfterAnOverflow : Prop :=
  ∀ (s p : State) (d a b x : Reg), x ≠ d →
    exec (.fmul x a b) { s with fpsr := { s.fpsr with rm := .zero } } = .next p →
    p.fpsr.cause.co = true → s.fpsr.triggers p.fpsr.cause = false →
    ∀ (i : Instr) (neg : Bool) (immediate v y : Word), neg = (fpSign (s.reg a) != fpSign (s.reg b)) → y = s.reg d →
      (s.fpsr.rm = .nearest → immediate = if neg then 0xFF800000 else 0x7F800000) →
      (s.fpsr.rm = .zero → immediate = if neg then 0xFF7FFFFF else 0x7F7FFFFF) →
      (s.fpsr.rm = .plusInf → immediate = if neg then 0xFF7FFFFF else 0x7F800000) →
      (s.fpsr.rm = .minusInf → immediate = if neg then 0xFF800000 else 0x7F7FFFFF) →
      (i = .fmadd d a b ∧ v = immediate ∨ i = .fmsub d a b ∧ v = immediate ^^^ 0x80000000) →
      ((isZero y = true ∨ (1 ≤ fpExp y ∧ fpExp y ≤ 254) ∨ isDenormal y = true ∧ s.fpsr.dn = true) →
        WritesReg i s d v 4 [.fpsr] ∧
        Completes i s fun t => t.fpsr = fpsrAfter s.fpsr { FpCauses.none with co := true, cx := true }) ∧
      (isInfinite y = true → ¬ (isInfinite v = true ∧ fpSign y ≠ fpSign v) →
        WritesReg i s d y 4 [.fpsr] ∧
        Completes i s fun t => t.fpsr = fpsrAfter s.fpsr { FpCauses.none with co := true, cx := true }) ∧
      (isInfinite y = true → isInfinite v = true → fpSign y ≠ fpSign v → s.fpsr.ev = false →
        WritesReg i s d 0x7FFFFFFF 4 [.fpsr] ∧
        Completes i s fun t => t.fpsr = fpsrAfter s.fpsr { FpCauses.none with co := true, cx := true, cv := true }) ∧
      (isInfinite y = true → isInfinite v = true → fpSign y ≠ fpSign v → s.fpsr.ev = true →
        exec i s = .next (({ s with
          fpsr := { s.fpsr with cause := { FpCauses.none with co := true, cx := true, cv := true } } } : State).eitEntry
            .fpe)) ∧
      (isDenormal y = true → s.fpsr.dn = false →
        exec i s = .next (({ s with
          fpsr := { s.fpsr with cause := { FpCauses.none with co := true, cx := true, ce := true } } } : State).eitEntry
            .fpe))

/-- ITOF and UTOF: encoding; a non-zero integer goes through the arithmetic finish, 0 gives +0; nothing but IXCT can be
detected (48_float_convert_compare.md R370, R371). That the cause bits record masked exceptions too and, with EX = 1, the entry
of FPE are the spec's decisions D16 and D3 (log entries 22 and 11). -/
def Obligations.IntegersConvertToRoundedNumbers : Prop :=
  (∀ d r : Reg, Spelled32 0xD r 0 0 ((0x4#4 ++ d) ++ 0x00#8) (.itof d r) ∧ Spelled32 0xD r 0 0 ((0x4#4 ++ d) ++ 0x40#8) (.utof d r)) ∧
  ∀ (s : State) (d r : Reg) (i : Instr) (x : Int) (o : FpOutcome),
    (i = .itof d r ∧ x = (s.reg r).toInt ∨ i = .utof d r ∧ x = (s.reg r).toNat) →
    (x = 0 → o = { causes := FpCauses.none, value := 0 }) →
    (x ≠ 0 → o = fpFinish s.fpsr s.fpsr.rm (decide (x < 0)) x.natAbs 1) →
    (o.causes = FpCauses.none ∨ o.causes = ixct) ∧
    (¬ (o.causes = ixct ∧ s.fpsr.ex = true) →
      WritesReg i s d o.value 4 [.fpsr] ∧ Completes i s fun t => t.fpsr = fpsrAfter s.fpsr o.causes) ∧
    (o.causes = ixct → s.fpsr.ex = true →
      exec i s = .next (({ s with fpsr := { s.fpsr with cause := ixct } } : State).eitEntry .fpe))

/-- FTOI and FTOS: encoding; the value truncated toward zero where it fits, IXCT where a fraction is dropped, IVLD with the
bound of the sign for a NaN, an infinity or what does not fit, UIPL for a denormalized operand with DN = 0
(48_float_convert_compare.md R372, R373). That the range test follows the truncation is the spec's decision D20 (log entry
25). The cause bits and the entry of FPE are decisions D16 and D3 (log entries 22 and 11). -/
def Obligations.NumbersConvertToTruncatedIntegers : Prop :=
  (∀ d r : Reg, Spelled32 0xD r 0 0 ((0x4#4 ++ d) ++ 0x80#8) (.ftoi d r) ∧ Spelled32 0xD r 0 0 ((0x4#4 ++ d) ++ 0xC0#8) (.ftos d r)) ∧
  ∀ (s : State) (d r : Reg) (i : Instr) (n : Nat) (x : Word), x = s.reg r →
    (i = .ftoi d r ∧ n = 31 ∨ i = .ftos d r ∧ n = 15) →
    ∀ (q : Int), (0 ≤ fpVal x → 0 ≤ q ∧ q * 2 ^ 149 ≤ fpVal x ∧ fpVal x < (q + 1) * 2 ^ 149) →
      (fpVal x ≤ 0 → q ≤ 0 ∧ fpVal x ≤ q * 2 ^ 149 ∧ (q - 1) * 2 ^ 149 < fpVal x) →
    ((isNan x = true ∨ isInfinite x = true ∨ q < -2 ^ n ∨ 2 ^ n ≤ q) →
      (s.fpsr.ev = false →
        WritesReg i s d (BitVec.ofInt 32 (if fpSign x then -2 ^ n else 2 ^ n - 1)) 4 [.fpsr] ∧
        Completes i s fun t => t.fpsr = fpsrAfter s.fpsr ivld) ∧
      (s.fpsr.ev = true → exec i s = .next (({ s with fpsr := { s.fpsr with cause := ivld } } : State).eitEntry .fpe))) ∧
    (isDenormal x = true → s.fpsr.dn = true →
      WritesReg i s d 0 4 [.fpsr] ∧ Completes i s fun t => t.fpsr = fpsrAfter s.fpsr FpCauses.none) ∧
    (isDenormal x = true → s.fpsr.dn = false →
      exec i s = .next (({ s with fpsr := { s.fpsr with cause := uipl } } : State).eitEntry .fpe)) ∧
    (isNan x = false → isInfinite x = false → isDenormal x = false → -2 ^ n ≤ q → q < 2 ^ n →
      (q * 2 ^ 149 = fpVal x → WritesReg i s d (BitVec.ofInt 32 q) 4 [.fpsr] ∧
        Completes i s fun t => t.fpsr = fpsrAfter s.fpsr FpCauses.none) ∧
      (q * 2 ^ 149 ≠ fpVal x → s.fpsr.ex = false → WritesReg i s d (BitVec.ofInt 32 q) 4 [.fpsr] ∧
        Completes i s fun t => t.fpsr = fpsrAfter s.fpsr ixct) ∧
      (q * 2 ^ 149 ≠ fpVal x → s.fpsr.ex = true →
        exec i s = .next (({ s with fpsr := { s.fpsr with cause := ixct } } : State).eitEntry .fpe)))

/-- FCMP and FCMPE: encoding; on operands that are no NaN and, with DN = 0, not denormalized (48_float_convert_compare.md R375 to
R377): equal gives 0, less a word with bit 31 set, greater a word with bit 31 clear that is neither 0 nor of the pattern
"comparison invalid"; the other bits are free. With DN = 1 a denormalized operand counts as zero; an infinity stands above
or below every finite value. No exception is detected. Which bits are free is the spec's decision D23 (log entry 27). -/
def Obligations.ComparesDeliverTheirPattern : Prop :=
  (∀ d a b : Reg, Spelled32 0xD a 0 b ((0x0#4 ++ d) ++ 0xC0#8) (.fcmp d a b) ∧
    Spelled32 0xD a 0 b ((0x0#4 ++ d) ++ 0xD0#8) (.fcmpe d a b)) ∧
  ∀ (s : State) (d ra rb : Reg) (a b : Word), a = flush (s.reg ra) → b = flush (s.reg rb) → isNan a = false → isNan b = false →
    (s.fpsr.dn = false → isDenormal (s.reg ra) = false ∧ isDenormal (s.reg rb) = false) →
    ∀ i ∈ [Instr.fcmp d ra rb, .fcmpe d ra rb], Completes i s fun t =>
      t.fpsr = fpsrAfter s.fpsr FpCauses.none ∧ RegsKeptBut [d] s t ∧ KeepsBut [.fpsr] s t ∧ t.pc = s.pc + 4 ∧
      (fpVal a = fpVal b → t.reg d = 0) ∧ (fpVal a < fpVal b → (t.reg d).getLsbD 31 = true) ∧
      (fpVal b < fpVal a → (t.reg d).getLsbD 31 = false ∧ t.reg d ≠ 0 ∧ (t.reg d).extractLsb' 22 9 ≠ 0x1FF)

/-- FCMP and FCMPE on a NaN (48_float_convert_compare.md R375 to R377): an SNaN in FCMP, any NaN in FCMPE is an invalid
operation; with EV = 0, and for a QNaN in FCMP whatever EV is, the result has bit 31 clear and bits 30 to 22 set; with EV =
1 an invalid operation enters FPE. Which bits are free is the spec's decision D23 (log entry 27); that the cause bits record a
masked exception, its decision D16 (log entry 22); the entry of FPE, its decision D3 (log entry 11); that a NaN comes before a
denormalized operand, its decision D17 (log entry 23). -/
def Obligations.ComparesOfANanAreInvalid : Prop :=
  ∀ (s : State) (d ra rb : Reg) (a b : Word), a = s.reg ra → b = s.reg rb →
    ∀ (i : Instr) (e : FpCauses),
      (i = .fcmp d ra rb ∧ (isSnan a = true ∨ isSnan b = true) ∧ e = ivld) ∨
      (i = .fcmp d ra rb ∧ isSnan a = false ∧ isSnan b = false ∧ (isQnan a = true ∨ isQnan b = true) ∧ e = FpCauses.none) ∨
      (i = .fcmpe d ra rb ∧ (isNan a = true ∨ isNan b = true) ∧ e = ivld) →
      (¬ (e = ivld ∧ s.fpsr.ev = true) → Completes i s fun t =>
        (t.reg d).getLsbD 31 = false ∧ (t.reg d).extractLsb' 22 9 = 0x1FF ∧ t.fpsr = fpsrAfter s.fpsr e ∧
        RegsKeptBut [d] s t ∧ KeepsBut [.fpsr] s t ∧ t.pc = s.pc + 4) ∧
      (e = ivld → s.fpsr.ev = true →
        exec i s = .next (({ s with fpsr := { s.fpsr with cause := ivld } } : State).eitEntry .fpe))
end

