-- ==== Sys2Proof/Laws/Decode.lean ====
section
/-! SUPPORT. The fields of the halfwords that the encoder's formats put together, and what a decoder with a fixed field can
answer. -/

namespace Sys2Proof

/-- A field above the lower part of a concatenation is a field of the upper part. -/
theorem field_of_upper {n m : Nat} (x : BitVec n) (y : BitVec m) (i k : Nat) :
    (x ++ y).extractLsb' (m + i) k = x.extractLsb' i k := by
  apply BitVec.eq_of_getLsbD_eq
  intro j _
  simp [BitVec.getLsbD_append, show ¬ m + i + j < m by omega, show m + i + j - m = i + j by omega]

/-- A field within the lower part of a concatenation is a field of that part. -/
theorem field_of_lower {n m : Nat} (x : BitVec n) (y : BitVec m) (i k : Nat) (h : i + k ≤ m) :
    (x ++ y).extractLsb' i k = y.extractLsb' i k := by
  apply BitVec.eq_of_getLsbD_eq
  intro j hj
  simp [BitVec.getLsbD_append, show i + j < m by omega]

/-- Two fields that lie side by side make the field that spans both. -/
theorem fields_side_by_side {n : Nat} (x : BitVec n) (i k l : Nat) :
    x.extractLsb' (i + k) l ++ x.extractLsb' i k = x.extractLsb' i (l + k) := by
  apply BitVec.eq_of_getLsbD_eq
  intro j hj
  rw [BitVec.getLsbD_append]
  split
  · simp [*]
  · simp [show j - k < l by omega, show i + k + (j - k) = i + j by omega, hj]

/-- The most significant bit of a concatenation whose upper part is not empty. -/
theorem msb_of_upper {n m : Nat} (x : BitVec (n + 1)) (y : BitVec m) : (x ++ y).msb = x.msb := by
  simp [BitVec.msb_append]

@[simp] theorem op1_rr16 (a b c d : BitVec 4) : op1 (rr16 a b c d) = a :=
  (field_of_upper (a ++ b) (c ++ d) 4 4).trans ((field_of_upper a b 0 4).trans (BitVec.extractLsb'_eq_self ..))
@[simp] theorem r1_rr16 (a b c d : BitVec 4) : r1 (rr16 a b c d) = b :=
  (field_of_upper (a ++ b) (c ++ d) 0 4).trans ((field_of_lower a b 0 4 (by omega)).trans (BitVec.extractLsb'_eq_self ..))
@[simp] theorem op2_rr16 (a b c d : BitVec 4) : op2 (rr16 a b c d) = c :=
  (field_of_lower (a ++ b) (c ++ d) 4 4 (by omega)).trans ((field_of_upper c d 0 4).trans (BitVec.extractLsb'_eq_self ..))
@[simp] theorem r2_rr16 (a b c d : BitVec 4) : r2 (rr16 a b c d) = d :=
  (field_of_lower (a ++ b) (c ++ d) 0 4 (by omega)).trans
    ((field_of_lower c d 0 4 (by omega)).trans (BitVec.extractLsb'_eq_self ..))
@[simp] theorem low8_rr16 (a b c d : BitVec 4) : low8 (rr16 a b c d) = c ++ d :=
  (field_of_lower (a ++ b) (c ++ d) 0 8 (by omega)).trans (BitVec.extractLsb'_eq_self ..)
@[simp] theorem op3_rr16 (a b c d : BitVec 4) : op3 (rr16 a b c d) = c.extractLsb' 1 3 :=
  (field_of_lower (a ++ b) (c ++ d) 5 3 (by omega)).trans (field_of_upper c d 1 3)
@[simp] theorem msb_rr16 (a b c d : BitVec 4) : (rr16 a b c d).msb = a.msb :=
  (msb_of_upper (a ++ b) (c ++ d)).trans (msb_of_upper a b)

@[simp] theorem op1_ri8 (a b : BitVec 4) (c : BitVec 8) : op1 (ri8 a b c) = a :=
  (field_of_upper (a ++ b) c 4 4).trans ((field_of_upper a b 0 4).trans (BitVec.extractLsb'_eq_self ..))
@[simp] theorem r1_ri8 (a b : BitVec 4) (c : BitVec 8) : r1 (ri8 a b c) = b :=
  (field_of_upper (a ++ b) c 0 4).trans ((field_of_lower a b 0 4 (by omega)).trans (BitVec.extractLsb'_eq_self ..))
@[simp] theorem low8_ri8 (a b : BitVec 4) (c : BitVec 8) : low8 (ri8 a b c) = c :=
  (field_of_lower (a ++ b) c 0 8 (by omega)).trans (BitVec.extractLsb'_eq_self ..)
@[simp] theorem msb_ri8 (a b : BitVec 4) (c : BitVec 8) : (ri8 a b c).msb = a.msb :=
  (msb_of_upper (a ++ b) c).trans (msb_of_upper a b)

@[simp] theorem op1_ri5 (a b : BitVec 4) (c : BitVec 3) (d : BitVec 5) : op1 (ri5 a b c d) = a :=
  (field_of_upper (a ++ b) (c ++ d) 4 4).trans ((field_of_upper a b 0 4).trans (BitVec.extractLsb'_eq_self ..))
@[simp] theorem r1_ri5 (a b : BitVec 4) (c : BitVec 3) (d : BitVec 5) : r1 (ri5 a b c d) = b :=
  (field_of_upper (a ++ b) (c ++ d) 0 4).trans ((field_of_lower a b 0 4 (by omega)).trans (BitVec.extractLsb'_eq_self ..))
@[simp] theorem op3_ri5 (a b : BitVec 4) (c : BitVec 3) (d : BitVec 5) : op3 (ri5 a b c d) = c :=
  (field_of_lower (a ++ b) (c ++ d) 5 3 (by omega)).trans ((field_of_upper c d 0 3).trans (BitVec.extractLsb'_eq_self ..))
@[simp] theorem low5_ri5 (a b : BitVec 4) (c : BitVec 3) (d : BitVec 5) : low5 (ri5 a b c d) = d :=
  (field_of_lower (a ++ b) (c ++ d) 0 5 (by omega)).trans
    ((field_of_lower c d 0 5 (by omega)).trans (BitVec.extractLsb'_eq_self ..))
@[simp] theorem msb_ri5 (a b : BitVec 4) (c : BitVec 3) (d : BitVec 5) : (ri5 a b c d).msb = a.msb :=
  (msb_of_upper (a ++ b) (c ++ d)).trans (msb_of_upper a b)

/-- The 24-bit field of a word that the formats I24 and B24 put together. -/
@[simp] theorem low24_ri8 (a b : BitVec 4) (x : BitVec 24) :
    low24 (ri8 a b (x.extractLsb' 16 8)) (x.extractLsb' 0 16) = x := by
  have h : (ri8 a b (x.extractLsb' 16 8)).extractLsb' 0 8 = x.extractLsb' 16 8 := low8_ri8 a b _
  unfold low24
  rw [h]
  exact (fields_side_by_side x 0 16 8).trans (BitVec.extractLsb'_eq_self ..)

/-- The bit position of an operand field whose top bit is 0. -/
@[simp] theorem bitposOf_append (p : BitVec 3) : bitposOf (0#1 ++ p) = p :=
  (field_of_lower 0#1 p 0 3 (by omega)).trans (BitVec.extractLsb'_eq_self ..)
@[simp] theorem msb_bitpos (p : BitVec 3) : (0#1 ++ p : BitVec 4).msb = false := msb_of_upper (n := 0) 0#1 p

/-- A halfword is its four fields. -/
theorem rr16_fields (h : Half) : rr16 (op1 h) (r1 h) (op2 h) (r2 h) = h := by
  unfold rr16 op1 r1 op2 r2
  have e1 : h.extractLsb' 12 4 ++ h.extractLsb' 8 4 = h.extractLsb' 8 8 := fields_side_by_side h 8 4 4
  have e2 : h.extractLsb' 4 4 ++ h.extractLsb' 0 4 = h.extractLsb' 0 8 := fields_side_by_side h 0 4 4
  rw [e1, e2]
  exact (fields_side_by_side h 0 8 8).trans (BitVec.extractLsb'_eq_self ..)

/-- A halfword is its two upper fields and its low byte. -/
theorem ri8_fields (h : Half) : ri8 (op1 h) (r1 h) (low8 h) = h := by
  unfold ri8 op1 r1 low8
  have e1 : h.extractLsb' 12 4 ++ h.extractLsb' 8 4 = h.extractLsb' 8 8 := fields_side_by_side h 8 4 4
  rw [e1]
  exact (fields_side_by_side h 0 8 8).trans (BitVec.extractLsb'_eq_self ..)

/-- A halfword is its two upper fields, the opcode of an immediate shift and its count. -/
theorem ri5_fields (h : Half) : ri5 (op1 h) (r1 h) (op3 h) (low5 h) = h := by
  unfold ri5 op1 r1 op3 low5
  have e1 : h.extractLsb' 12 4 ++ h.extractLsb' 8 4 = h.extractLsb' 8 8 := fields_side_by_side h 8 4 4
  have e2 : h.extractLsb' 5 3 ++ h.extractLsb' 0 5 = h.extractLsb' 0 8 := fields_side_by_side h 0 5 3
  rw [e1, e2]
  exact (fields_side_by_side h 0 8 8).trans (BitVec.extractLsb'_eq_self ..)

/-- A decoder with a fixed field answers only its one instruction, and only where the field holds what it must. -/
theorem onlyIf_eq_some {c : Bool} {i j : Instr} : onlyIf c i = some j ↔ c = true ∧ i = j := by
  cases c <;> simp [onlyIf]

/-- A decoder's answer is an instruction exactly where the row exists. -/
theorem orReject_eq_instr {o : Option Instr} {w : DecodeReject} {i : Instr} : orReject o w = .instr i ↔ o = some i := by
  cases o <;> simp [orReject]

end Sys2Proof
end

