-- ==== Sys2Proof/Laws/Float.lean ====
section
/-! SUPPORT. What the shared floating-point operations can answer, case by case (47_float_arith.md R325, R327, R336,
48_float_convert_compare.md R377). -/

namespace Sys2Proof.Machine

/-- The finish of an FPU operation: the entry of FPE with the cause bits written, or the flags raised, the destination written
and the next instruction. -/
theorem fpEnd_cases {s t : State} {d : Reg} {o : FpOutcome} (h : s.fpEnd d o = .next t) :
    (s.fpsr.triggers o.causes = true ∧ t = ({ s with fpsr := { s.fpsr with cause := o.causes } } : State).eitEntry .fpe) ∨
    (s.fpsr.triggers o.causes = false ∧
      t = ((({ s with fpsr := Fpsr.raiseFlags { s.fpsr with cause := o.causes } o.causes } : State).setReg d o.value).advance
        4)) := by
  unfold State.fpEnd at h
  by_cases ht : s.fpsr.triggers o.causes = true
  · simp only [ht, if_true] at h; cases h; exact .inl ⟨ht, rfl⟩
  · have hf : s.fpsr.triggers o.causes = false := by simpa using ht
    simp only [hf] at h; cases h; exact .inr ⟨hf, rfl⟩

/-- What a finish can detect (R328): nothing, IXCT, OVF alone or with IXCT, UDF alone or with UIPL. -/
theorem fpFinish_causes (f : Fpsr) (rnd : RoundMode) (neg : Bool) (num den : Nat) :
    (fpFinish f rnd neg num den).causes ∈ [FpCauses.none, ixct, ovf, ovf.union ixct, udf, udf.union uipl] := by
  unfold fpFinish
  split
  · simp only []; split <;> simp
  · split
    · simp only []; split <;> simp
    · simp only []; split <;> simp

/-- A finish below the normalized numbers delivers a zero. -/
theorem fpFinish_of_tiny (f : Fpsr) (rnd : RoundMode) (neg : Bool) {num den : Nat} (h : num * 2 ^ 126 < den) :
    fpFinish f rnd neg num den =
      { causes := if !f.eu && !f.dn then udf.union uipl else udf, value := signedZero neg } := by
  rw [fpFinish, if_pos h]

/-- A finish whose rounded magnitude is past the largest number delivers what the rounding mode asks for. -/
theorem fpFinish_of_overflow (f : Fpsr) (rnd : RoundMode) (neg : Bool) {num den : Nat} (h : ¬ num * 2 ^ 126 < den)
    (ho : 0x7F800000 ≤ roundMag rnd neg num den) :
    fpFinish f rnd neg num den =
      { causes := if f.eo then ovf else ovf.union ixct, value := overflowValue f.rm neg } := by
  rw [fpFinish, if_neg h, if_pos ho]

/-- A finish in the range of the normalized numbers delivers the rounded number. -/
theorem fpFinish_of_normal (f : Fpsr) (rnd : RoundMode) (neg : Bool) {num den : Nat} (h : ¬ num * 2 ^ 126 < den)
    (ho : ¬ 0x7F800000 ≤ roundMag rnd neg num den) :
    fpFinish f rnd neg num den =
      { causes := if fpRem num den = 0 then FpCauses.none else ixct, value := fpPack neg (roundMag rnd neg num den) } := by
  rw [fpFinish, if_neg h, if_neg ho]

/-- Two operands that are no NaN and, with DN = 0, not denormalized: the arithmetic case. -/
theorem fpBinary_of_numbers (f : Fpsr) (core : Word → Word → FpOutcome) {a b : Word} (ha : isNan a = false)
    (hb : isNan b = false) (hd : ((isDenormal a || isDenormal b) && !f.dn) = false) :
    fpBinary f core a b = core (flush a) (flush b) := by
  simp only [isNan, Bool.or_eq_false_iff] at ha hb
  simp [fpBinary, ha.1, ha.2, hb.1, hb.2, hd]

/-- The word "greater" has its sign clear, is not zero and not of the pattern "comparison invalid": it lies from 1 to
0x7FBFFFFF (48_float_convert_compare.md R377). -/
theorem patternGreater_range (n : Nat) (a b : Word) :
    1 ≤ (patternGreater n a b).toNat ∧ (patternGreater n a b).toNat ≤ 0x7FBFFFFF := by
  have h := Nat.mod_lt (Config.fcmpGreater n a b) (show 0 < 0x7FBFFFFF by omega)
  simp only [patternGreater, BitVec.toNat_ofNat]
  omega

end Sys2Proof.Machine
end

