-- ==== Sys2Proof/Laws/State.lean ====
section
/-! SUPPORT. What each state operation does to each field: one lemma per field per operation. -/

namespace Sys2Proof.Machine

variable (s : State)

/-! ### State.advance -/

@[simp] theorem advance_gpr (n : Word) : (s.advance n).gpr = s.gpr := rfl
@[simp] theorem advance_spi (n : Word) : (s.advance n).spi = s.spi := rfl
@[simp] theorem advance_spu (n : Word) : (s.advance n).spu = s.spu := rfl
@[simp] theorem advance_psw (n : Word) : (s.advance n).psw = s.psw := rfl
@[simp] theorem advance_bpc (n : Word) : (s.advance n).bpc = s.bpc := rfl
@[simp] theorem advance_fpsr (n : Word) : (s.advance n).fpsr = s.fpsr := rfl
@[simp] theorem advance_acc (n : Word) : (s.advance n).acc = s.acc := rfl
@[simp] theorem advance_pc (n : Word) : (s.advance n).pc = s.pc + n := rfl
@[simp] theorem advance_lock (n : Word) : (s.advance n).lock = s.lock := rfl
@[simp] theorem advance_mem (n : Word) : (s.advance n).mem = s.mem := rfl
@[simp] theorem advance_memMap (n : Word) : (s.advance n).memMap = s.memMap := rfl
@[simp] theorem advance_devLog (n : Word) : (s.advance n).devLog = s.devLog := rfl
@[simp] theorem advance_queue (n : Word) : (s.advance n).queue = s.queue := rfl
@[simp] theorem advance_extInt (n : Word) : (s.advance n).extInt = s.extInt := rfl
@[simp] theorem advance_resetReq (n : Word) : (s.advance n).resetReq = s.resetReq := rfl
@[simp] theorem advance_drawIndex (n : Word) : (s.advance n).drawIndex = s.drawIndex := rfl

/-! ### State.jump -/

@[simp] theorem jump_gpr (a : Word) : (s.jump a).gpr = s.gpr := rfl
@[simp] theorem jump_spi (a : Word) : (s.jump a).spi = s.spi := rfl
@[simp] theorem jump_spu (a : Word) : (s.jump a).spu = s.spu := rfl
@[simp] theorem jump_psw (a : Word) : (s.jump a).psw = s.psw := rfl
@[simp] theorem jump_bpc (a : Word) : (s.jump a).bpc = s.bpc := rfl
@[simp] theorem jump_fpsr (a : Word) : (s.jump a).fpsr = s.fpsr := rfl
@[simp] theorem jump_acc (a : Word) : (s.jump a).acc = s.acc := rfl
@[simp] theorem jump_pc (a : Word) : (s.jump a).pc = a := rfl
@[simp] theorem jump_lock (a : Word) : (s.jump a).lock = s.lock := rfl
@[simp] theorem jump_mem (a : Word) : (s.jump a).mem = s.mem := rfl
@[simp] theorem jump_memMap (a : Word) : (s.jump a).memMap = s.memMap := rfl
@[simp] theorem jump_devLog (a : Word) : (s.jump a).devLog = s.devLog := rfl
@[simp] theorem jump_queue (a : Word) : (s.jump a).queue = [] := rfl
@[simp] theorem jump_extInt (a : Word) : (s.jump a).extInt = s.extInt := rfl
@[simp] theorem jump_resetReq (a : Word) : (s.jump a).resetReq = s.resetReq := rfl
@[simp] theorem jump_drawIndex (a : Word) : (s.jump a).drawIndex = s.drawIndex := rfl

/-! ### State.setC -/

@[simp] theorem setC_gpr (c : Bool) : (s.setC c).gpr = s.gpr := rfl
@[simp] theorem setC_spi (c : Bool) : (s.setC c).spi = s.spi := rfl
@[simp] theorem setC_spu (c : Bool) : (s.setC c).spu = s.spu := rfl
@[simp] theorem setC_psw (c : Bool) : (s.setC c).psw = { s.psw with c := c } := rfl
@[simp] theorem setC_bpc (c : Bool) : (s.setC c).bpc = s.bpc := rfl
@[simp] theorem setC_fpsr (c : Bool) : (s.setC c).fpsr = s.fpsr := rfl
@[simp] theorem setC_acc (c : Bool) : (s.setC c).acc = s.acc := rfl
@[simp] theorem setC_pc (c : Bool) : (s.setC c).pc = s.pc := rfl
@[simp] theorem setC_lock (c : Bool) : (s.setC c).lock = s.lock := rfl
@[simp] theorem setC_mem (c : Bool) : (s.setC c).mem = s.mem := rfl
@[simp] theorem setC_memMap (c : Bool) : (s.setC c).memMap = s.memMap := rfl
@[simp] theorem setC_devLog (c : Bool) : (s.setC c).devLog = s.devLog := rfl
@[simp] theorem setC_queue (c : Bool) : (s.setC c).queue = s.queue := rfl
@[simp] theorem setC_extInt (c : Bool) : (s.setC c).extInt = s.extInt := rfl
@[simp] theorem setC_resetReq (c : Bool) : (s.setC c).resetReq = s.resetReq := rfl
@[simp] theorem setC_drawIndex (c : Bool) : (s.setC c).drawIndex = s.drawIndex := rfl

/-! ### State.setReg -/

@[simp] theorem setReg_psw (r : Reg) (v : Word) :
    (s.setReg r v).psw = s.psw :=
  by unfold State.setReg; split <;> [rfl; (split <;> rfl)]
@[simp] theorem setReg_bpc (r : Reg) (v : Word) :
    (s.setReg r v).bpc = s.bpc :=
  by unfold State.setReg; split <;> [rfl; (split <;> rfl)]
@[simp] theorem setReg_fpsr (r : Reg) (v : Word) :
    (s.setReg r v).fpsr = s.fpsr :=
  by unfold State.setReg; split <;> [rfl; (split <;> rfl)]
@[simp] theorem setReg_acc (r : Reg) (v : Word) :
    (s.setReg r v).acc = s.acc :=
  by unfold State.setReg; split <;> [rfl; (split <;> rfl)]
@[simp] theorem setReg_pc (r : Reg) (v : Word) :
    (s.setReg r v).pc = s.pc :=
  by unfold State.setReg; split <;> [rfl; (split <;> rfl)]
@[simp] theorem setReg_lock (r : Reg) (v : Word) :
    (s.setReg r v).lock = s.lock :=
  by unfold State.setReg; split <;> [rfl; (split <;> rfl)]
@[simp] theorem setReg_mem (r : Reg) (v : Word) :
    (s.setReg r v).mem = s.mem :=
  by unfold State.setReg; split <;> [rfl; (split <;> rfl)]
@[simp] theorem setReg_memMap (r : Reg) (v : Word) :
    (s.setReg r v).memMap = s.memMap :=
  by unfold State.setReg; split <;> [rfl; (split <;> rfl)]
@[simp] theorem setReg_devLog (r : Reg) (v : Word) :
    (s.setReg r v).devLog = s.devLog :=
  by unfold State.setReg; split <;> [rfl; (split <;> rfl)]
@[simp] theorem setReg_queue (r : Reg) (v : Word) :
    (s.setReg r v).queue = s.queue :=
  by unfold State.setReg; split <;> [rfl; (split <;> rfl)]
@[simp] theorem setReg_extInt (r : Reg) (v : Word) :
    (s.setReg r v).extInt = s.extInt :=
  by unfold State.setReg; split <;> [rfl; (split <;> rfl)]
@[simp] theorem setReg_resetReq (r : Reg) (v : Word) :
    (s.setReg r v).resetReq = s.resetReq :=
  by unfold State.setReg; split <;> [rfl; (split <;> rfl)]
@[simp] theorem setReg_drawIndex (r : Reg) (v : Word) :
    (s.setReg r v).drawIndex = s.drawIndex :=
  by unfold State.setReg; split <;> [rfl; (split <;> rfl)]

/-! ### State.writeByte -/

@[simp] theorem writeByte_gpr (a : Word) (b : Byte) : (s.writeByte a b).gpr = s.gpr := by unfold State.writeByte; split <;> rfl
@[simp] theorem writeByte_spi (a : Word) (b : Byte) : (s.writeByte a b).spi = s.spi := by unfold State.writeByte; split <;> rfl
@[simp] theorem writeByte_spu (a : Word) (b : Byte) : (s.writeByte a b).spu = s.spu := by unfold State.writeByte; split <;> rfl
@[simp] theorem writeByte_psw (a : Word) (b : Byte) : (s.writeByte a b).psw = s.psw := by unfold State.writeByte; split <;> rfl
@[simp] theorem writeByte_bpc (a : Word) (b : Byte) : (s.writeByte a b).bpc = s.bpc := by unfold State.writeByte; split <;> rfl
@[simp] theorem writeByte_fpsr (a : Word) (b : Byte) : (s.writeByte a b).fpsr = s.fpsr := by unfold State.writeByte; split <;> rfl
@[simp] theorem writeByte_acc (a : Word) (b : Byte) : (s.writeByte a b).acc = s.acc := by unfold State.writeByte; split <;> rfl
@[simp] theorem writeByte_pc (a : Word) (b : Byte) : (s.writeByte a b).pc = s.pc := by unfold State.writeByte; split <;> rfl
@[simp] theorem writeByte_lock (a : Word) (b : Byte) : (s.writeByte a b).lock = s.lock := by unfold State.writeByte; split <;> rfl
@[simp] theorem writeByte_memMap (a : Word) (b : Byte) : (s.writeByte a b).memMap = s.memMap := by unfold State.writeByte; split <;> rfl
@[simp] theorem writeByte_devLog (a : Word) (b : Byte) : (s.writeByte a b).devLog = s.devLog := by unfold State.writeByte; split <;> rfl
@[simp] theorem writeByte_extInt (a : Word) (b : Byte) : (s.writeByte a b).extInt = s.extInt := by unfold State.writeByte; split <;> rfl
@[simp] theorem writeByte_resetReq (a : Word) (b : Byte) : (s.writeByte a b).resetReq = s.resetReq := by unfold State.writeByte; split <;> rfl
@[simp] theorem writeByte_drawIndex (a : Word) (b : Byte) : (s.writeByte a b).drawIndex = s.drawIndex := by unfold State.writeByte; split <;> rfl
theorem writeByte_mem (a : Word) (b : Byte) :
    (s.writeByte a b).mem = if s.backing a = .ram then Memory.write s.mem a.toNat b else s.mem := by
  unfold State.writeByte; split <;> rfl

/-! ### State.logAccess -/

@[simp] theorem logAccess_gpr (a : Word) (n : Nat) (v : Option Word) : (s.logAccess a n v).gpr = s.gpr := by unfold State.logAccess; split <;> rfl
@[simp] theorem logAccess_spi (a : Word) (n : Nat) (v : Option Word) : (s.logAccess a n v).spi = s.spi := by unfold State.logAccess; split <;> rfl
@[simp] theorem logAccess_spu (a : Word) (n : Nat) (v : Option Word) : (s.logAccess a n v).spu = s.spu := by unfold State.logAccess; split <;> rfl
@[simp] theorem logAccess_psw (a : Word) (n : Nat) (v : Option Word) : (s.logAccess a n v).psw = s.psw := by unfold State.logAccess; split <;> rfl
@[simp] theorem logAccess_bpc (a : Word) (n : Nat) (v : Option Word) : (s.logAccess a n v).bpc = s.bpc := by unfold State.logAccess; split <;> rfl
@[simp] theorem logAccess_fpsr (a : Word) (n : Nat) (v : Option Word) : (s.logAccess a n v).fpsr = s.fpsr := by unfold State.logAccess; split <;> rfl
@[simp] theorem logAccess_acc (a : Word) (n : Nat) (v : Option Word) : (s.logAccess a n v).acc = s.acc := by unfold State.logAccess; split <;> rfl
@[simp] theorem logAccess_pc (a : Word) (n : Nat) (v : Option Word) : (s.logAccess a n v).pc = s.pc := by unfold State.logAccess; split <;> rfl
@[simp] theorem logAccess_lock (a : Word) (n : Nat) (v : Option Word) : (s.logAccess a n v).lock = s.lock := by unfold State.logAccess; split <;> rfl
@[simp] theorem logAccess_mem (a : Word) (n : Nat) (v : Option Word) : (s.logAccess a n v).mem = s.mem := by unfold State.logAccess; split <;> rfl
@[simp] theorem logAccess_memMap (a : Word) (n : Nat) (v : Option Word) : (s.logAccess a n v).memMap = s.memMap := by unfold State.logAccess; split <;> rfl
@[simp] theorem logAccess_queue (a : Word) (n : Nat) (v : Option Word) : (s.logAccess a n v).queue = s.queue := by unfold State.logAccess; split <;> rfl
@[simp] theorem logAccess_extInt (a : Word) (n : Nat) (v : Option Word) : (s.logAccess a n v).extInt = s.extInt := by unfold State.logAccess; split <;> rfl
@[simp] theorem logAccess_resetReq (a : Word) (n : Nat) (v : Option Word) : (s.logAccess a n v).resetReq = s.resetReq := by unfold State.logAccess; split <;> rfl
@[simp] theorem logAccess_drawIndex (a : Word) (n : Nat) (v : Option Word) : (s.logAccess a n v).drawIndex = s.drawIndex := by unfold State.logAccess; split <;> rfl
theorem logAccess_devLog (a : Word) (n : Nat) (v : Option Word) :
    (s.logAccess a n v).devLog =
      if s.allBacked a n noDevice = true then s.devLog else { addr := a.toNat, width := n, stored := v } :: s.devLog := by
  unfold State.logAccess; split <;> rfl

/-! ### State.afterLoad -/

@[simp] theorem afterLoad_gpr (a : Word) (n : Nat) : (s.afterLoad a n).gpr = s.gpr := by simp [State.afterLoad]
@[simp] theorem afterLoad_spi (a : Word) (n : Nat) : (s.afterLoad a n).spi = s.spi := by simp [State.afterLoad]
@[simp] theorem afterLoad_spu (a : Word) (n : Nat) : (s.afterLoad a n).spu = s.spu := by simp [State.afterLoad]
@[simp] theorem afterLoad_psw (a : Word) (n : Nat) : (s.afterLoad a n).psw = s.psw := by simp [State.afterLoad]
@[simp] theorem afterLoad_bpc (a : Word) (n : Nat) : (s.afterLoad a n).bpc = s.bpc := by simp [State.afterLoad]
@[simp] theorem afterLoad_fpsr (a : Word) (n : Nat) : (s.afterLoad a n).fpsr = s.fpsr := by simp [State.afterLoad]
@[simp] theorem afterLoad_acc (a : Word) (n : Nat) : (s.afterLoad a n).acc = s.acc := by simp [State.afterLoad]
@[simp] theorem afterLoad_pc (a : Word) (n : Nat) : (s.afterLoad a n).pc = s.pc := by simp [State.afterLoad]
@[simp] theorem afterLoad_lock (a : Word) (n : Nat) : (s.afterLoad a n).lock = s.lock := by simp [State.afterLoad]
@[simp] theorem afterLoad_mem (a : Word) (n : Nat) : (s.afterLoad a n).mem = s.mem := by simp [State.afterLoad]
@[simp] theorem afterLoad_memMap (a : Word) (n : Nat) : (s.afterLoad a n).memMap = s.memMap := by simp [State.afterLoad]
@[simp] theorem afterLoad_queue (a : Word) (n : Nat) : (s.afterLoad a n).queue = s.queue := by simp [State.afterLoad]
@[simp] theorem afterLoad_extInt (a : Word) (n : Nat) : (s.afterLoad a n).extInt = s.extInt := by simp [State.afterLoad]
@[simp] theorem afterLoad_resetReq (a : Word) (n : Nat) : (s.afterLoad a n).resetReq = s.resetReq := by simp [State.afterLoad]
@[simp] theorem afterLoad_drawIndex (a : Word) (n : Nat) : (s.afterLoad a n).drawIndex = s.drawIndex := by simp [State.afterLoad]

/-! ### State.store8 -/

@[simp] theorem store8_gpr (a : Word) (b : Byte) : (s.store8 a b).gpr = s.gpr := by simp [State.store8]
@[simp] theorem store8_spi (a : Word) (b : Byte) : (s.store8 a b).spi = s.spi := by simp [State.store8]
@[simp] theorem store8_spu (a : Word) (b : Byte) : (s.store8 a b).spu = s.spu := by simp [State.store8]
@[simp] theorem store8_psw (a : Word) (b : Byte) : (s.store8 a b).psw = s.psw := by simp [State.store8]
@[simp] theorem store8_bpc (a : Word) (b : Byte) : (s.store8 a b).bpc = s.bpc := by simp [State.store8]
@[simp] theorem store8_fpsr (a : Word) (b : Byte) : (s.store8 a b).fpsr = s.fpsr := by simp [State.store8]
@[simp] theorem store8_acc (a : Word) (b : Byte) : (s.store8 a b).acc = s.acc := by simp [State.store8]
@[simp] theorem store8_pc (a : Word) (b : Byte) : (s.store8 a b).pc = s.pc := by simp [State.store8]
@[simp] theorem store8_lock (a : Word) (b : Byte) : (s.store8 a b).lock = s.lock := by simp [State.store8]
@[simp] theorem store8_memMap (a : Word) (b : Byte) : (s.store8 a b).memMap = s.memMap := by simp [State.store8]
@[simp] theorem store8_extInt (a : Word) (b : Byte) : (s.store8 a b).extInt = s.extInt := by simp [State.store8]
@[simp] theorem store8_resetReq (a : Word) (b : Byte) : (s.store8 a b).resetReq = s.resetReq := by simp [State.store8]
@[simp] theorem store8_drawIndex (a : Word) (b : Byte) : (s.store8 a b).drawIndex = s.drawIndex := by simp [State.store8]

/-! ### State.store16 -/

@[simp] theorem store16_gpr (a : Word) (b : Half) : (s.store16 a b).gpr = s.gpr := by simp [State.store16]
@[simp] theorem store16_spi (a : Word) (b : Half) : (s.store16 a b).spi = s.spi := by simp [State.store16]
@[simp] theorem store16_spu (a : Word) (b : Half) : (s.store16 a b).spu = s.spu := by simp [State.store16]
@[simp] theorem store16_psw (a : Word) (b : Half) : (s.store16 a b).psw = s.psw := by simp [State.store16]
@[simp] theorem store16_bpc (a : Word) (b : Half) : (s.store16 a b).bpc = s.bpc := by simp [State.store16]
@[simp] theorem store16_fpsr (a : Word) (b : Half) : (s.store16 a b).fpsr = s.fpsr := by simp [State.store16]
@[simp] theorem store16_acc (a : Word) (b : Half) : (s.store16 a b).acc = s.acc := by simp [State.store16]
@[simp] theorem store16_pc (a : Word) (b : Half) : (s.store16 a b).pc = s.pc := by simp [State.store16]
@[simp] theorem store16_lock (a : Word) (b : Half) : (s.store16 a b).lock = s.lock := by simp [State.store16]
@[simp] theorem store16_memMap (a : Word) (b : Half) : (s.store16 a b).memMap = s.memMap := by simp [State.store16]
@[simp] theorem store16_extInt (a : Word) (b : Half) : (s.store16 a b).extInt = s.extInt := by simp [State.store16]
@[simp] theorem store16_resetReq (a : Word) (b : Half) : (s.store16 a b).resetReq = s.resetReq := by simp [State.store16]
@[simp] theorem store16_drawIndex (a : Word) (b : Half) : (s.store16 a b).drawIndex = s.drawIndex := by simp [State.store16]

/-! ### State.store32 -/

@[simp] theorem store32_gpr (a b : Word) : (s.store32 a b).gpr = s.gpr := by simp [State.store32]
@[simp] theorem store32_spi (a b : Word) : (s.store32 a b).spi = s.spi := by simp [State.store32]
@[simp] theorem store32_spu (a b : Word) : (s.store32 a b).spu = s.spu := by simp [State.store32]
@[simp] theorem store32_psw (a b : Word) : (s.store32 a b).psw = s.psw := by simp [State.store32]
@[simp] theorem store32_bpc (a b : Word) : (s.store32 a b).bpc = s.bpc := by simp [State.store32]
@[simp] theorem store32_fpsr (a b : Word) : (s.store32 a b).fpsr = s.fpsr := by simp [State.store32]
@[simp] theorem store32_acc (a b : Word) : (s.store32 a b).acc = s.acc := by simp [State.store32]
@[simp] theorem store32_pc (a b : Word) : (s.store32 a b).pc = s.pc := by simp [State.store32]
@[simp] theorem store32_lock (a b : Word) : (s.store32 a b).lock = s.lock := by simp [State.store32]
@[simp] theorem store32_memMap (a b : Word) : (s.store32 a b).memMap = s.memMap := by simp [State.store32]
@[simp] theorem store32_extInt (a b : Word) : (s.store32 a b).extInt = s.extInt := by simp [State.store32]
@[simp] theorem store32_resetReq (a b : Word) : (s.store32 a b).resetReq = s.resetReq := by simp [State.store32]
@[simp] theorem store32_drawIndex (a b : Word) : (s.store32 a b).drawIndex = s.drawIndex := by simp [State.store32]

/-! ### State.eitEntry -/

@[simp] theorem eitEntry_gpr (e : EitEvent) : (s.eitEntry e).gpr = s.gpr := rfl
@[simp] theorem eitEntry_spi (e : EitEvent) : (s.eitEntry e).spi = s.spi := rfl
@[simp] theorem eitEntry_spu (e : EitEvent) : (s.eitEntry e).spu = s.spu := rfl
@[simp] theorem eitEntry_psw (e : EitEvent) :
    (s.eitEntry e).psw = { bsm := s.psw.sm, bie := s.psw.ie, bc := s.psw.c, sm := e.smValue s.psw.sm, ie := false, c := false } :=
  rfl
@[simp] theorem eitEntry_bpc (e : EitEvent) : (s.eitEntry e).bpc = e.bpcValue s.pc &&& 0xFFFFFFFE := rfl
@[simp] theorem eitEntry_fpsr (e : EitEvent) : (s.eitEntry e).fpsr = s.fpsr := rfl
@[simp] theorem eitEntry_acc (e : EitEvent) : (s.eitEntry e).acc = s.acc := rfl
@[simp] theorem eitEntry_pc (e : EitEvent) : (s.eitEntry e).pc = e.vector := rfl
@[simp] theorem eitEntry_lock (e : EitEvent) : (s.eitEntry e).lock = s.lock := rfl
@[simp] theorem eitEntry_mem (e : EitEvent) : (s.eitEntry e).mem = s.mem := rfl
@[simp] theorem eitEntry_memMap (e : EitEvent) : (s.eitEntry e).memMap = s.memMap := rfl
@[simp] theorem eitEntry_devLog (e : EitEvent) : (s.eitEntry e).devLog = s.devLog := rfl
@[simp] theorem eitEntry_queue (e : EitEvent) : (s.eitEntry e).queue = [] := rfl
@[simp] theorem eitEntry_extInt (e : EitEvent) : (s.eitEntry e).extInt = s.extInt := rfl
@[simp] theorem eitEntry_resetReq (e : EitEvent) : (s.eitEntry e).resetReq = s.resetReq := rfl
@[simp] theorem eitEntry_drawIndex (e : EitEvent) : (s.eitEntry e).drawIndex = s.drawIndex := rfl

/-! ### State.rteReturn -/

@[simp] theorem rteReturn_gpr : (s.rteReturn).gpr = s.gpr := rfl
@[simp] theorem rteReturn_spi : (s.rteReturn).spi = s.spi := rfl
@[simp] theorem rteReturn_spu : (s.rteReturn).spu = s.spu := rfl
@[simp] theorem rteReturn_bpc : (s.rteReturn).bpc = Config.rteBpc s.drawIndex s.bpc &&& 0xFFFFFFFE := rfl
@[simp] theorem rteReturn_fpsr : (s.rteReturn).fpsr = s.fpsr := rfl
@[simp] theorem rteReturn_acc : (s.rteReturn).acc = s.acc := rfl
@[simp] theorem rteReturn_pc : (s.rteReturn).pc = wordAlign s.bpc := rfl
@[simp] theorem rteReturn_lock : (s.rteReturn).lock = s.lock := rfl
@[simp] theorem rteReturn_mem : (s.rteReturn).mem = s.mem := rfl
@[simp] theorem rteReturn_memMap : (s.rteReturn).memMap = s.memMap := rfl
@[simp] theorem rteReturn_devLog : (s.rteReturn).devLog = s.devLog := rfl
@[simp] theorem rteReturn_queue : (s.rteReturn).queue = [] := rfl
@[simp] theorem rteReturn_extInt : (s.rteReturn).extInt = s.extInt := rfl
@[simp] theorem rteReturn_resetReq : (s.rteReturn).resetReq = s.resetReq := rfl
@[simp] theorem rteReturn_drawIndex : (s.rteReturn).drawIndex = s.drawIndex := rfl

/-! ### State.takeReset -/

@[simp] theorem takeReset_gpr : (s.takeReset).gpr = State.reset.gpr := rfl
@[simp] theorem takeReset_spi : (s.takeReset).spi = 0 := rfl
@[simp] theorem takeReset_spu : (s.takeReset).spu = 0 := rfl
@[simp] theorem takeReset_psw : (s.takeReset).psw = Psw.reset := rfl
@[simp] theorem takeReset_bpc : (s.takeReset).bpc = 0 := rfl
@[simp] theorem takeReset_fpsr : (s.takeReset).fpsr = Fpsr.reset := rfl
@[simp] theorem takeReset_acc : (s.takeReset).acc = 0 := rfl
@[simp] theorem takeReset_pc : (s.takeReset).pc = Config.vecRI := rfl
@[simp] theorem takeReset_lock : (s.takeReset).lock = false := rfl
@[simp] theorem takeReset_mem : (s.takeReset).mem = s.mem := rfl
@[simp] theorem takeReset_memMap : (s.takeReset).memMap = s.memMap := rfl
@[simp] theorem takeReset_devLog : (s.takeReset).devLog = s.devLog := rfl
@[simp] theorem takeReset_queue : (s.takeReset).queue = [] := rfl
@[simp] theorem takeReset_extInt : (s.takeReset).extInt = s.extInt := rfl
@[simp] theorem takeReset_resetReq : (s.takeReset).resetReq = false := rfl
@[simp] theorem takeReset_drawIndex : (s.takeReset).drawIndex = s.drawIndex := rfl

/-! ### State.tick -/

@[simp] theorem tick_gpr : (s.tick).gpr = s.gpr := rfl
@[simp] theorem tick_spi : (s.tick).spi = s.spi := rfl
@[simp] theorem tick_spu : (s.tick).spu = s.spu := rfl
@[simp] theorem tick_psw : (s.tick).psw = s.psw := rfl
@[simp] theorem tick_bpc : (s.tick).bpc = s.bpc := rfl
@[simp] theorem tick_fpsr : (s.tick).fpsr = s.fpsr := rfl
@[simp] theorem tick_acc : (s.tick).acc = s.acc := rfl
@[simp] theorem tick_pc : (s.tick).pc = s.pc := rfl
@[simp] theorem tick_lock : (s.tick).lock = s.lock := rfl
@[simp] theorem tick_mem : (s.tick).mem = s.mem := rfl
@[simp] theorem tick_memMap : (s.tick).memMap = s.memMap := rfl
@[simp] theorem tick_devLog : (s.tick).devLog = s.devLog := rfl
@[simp] theorem tick_queue : (s.tick).queue = s.queue := rfl
@[simp] theorem tick_extInt : (s.tick).extInt = s.extInt := rfl
@[simp] theorem tick_resetReq : (s.tick).resetReq = s.resetReq := rfl
@[simp] theorem tick_drawIndex : (s.tick).drawIndex = s.drawIndex + 1 := rfl

/-! ### State.modifyByte -/

@[simp] theorem modifyByte_gpr (a : Word) (f : Byte → Byte) : (s.modifyByte a f).gpr = s.gpr := by simp [State.modifyByte]
@[simp] theorem modifyByte_spi (a : Word) (f : Byte → Byte) : (s.modifyByte a f).spi = s.spi := by simp [State.modifyByte]
@[simp] theorem modifyByte_spu (a : Word) (f : Byte → Byte) : (s.modifyByte a f).spu = s.spu := by simp [State.modifyByte]
@[simp] theorem modifyByte_psw (a : Word) (f : Byte → Byte) : (s.modifyByte a f).psw = s.psw := by simp [State.modifyByte]
@[simp] theorem modifyByte_bpc (a : Word) (f : Byte → Byte) : (s.modifyByte a f).bpc = s.bpc := by simp [State.modifyByte]
@[simp] theorem modifyByte_fpsr (a : Word) (f : Byte → Byte) : (s.modifyByte a f).fpsr = s.fpsr := by simp [State.modifyByte]
@[simp] theorem modifyByte_acc (a : Word) (f : Byte → Byte) : (s.modifyByte a f).acc = s.acc := by simp [State.modifyByte]
@[simp] theorem modifyByte_pc (a : Word) (f : Byte → Byte) : (s.modifyByte a f).pc = s.pc := by simp [State.modifyByte]
@[simp] theorem modifyByte_memMap (a : Word) (f : Byte → Byte) : (s.modifyByte a f).memMap = s.memMap := by simp [State.modifyByte]
@[simp] theorem modifyByte_extInt (a : Word) (f : Byte → Byte) : (s.modifyByte a f).extInt = s.extInt := by simp [State.modifyByte]
@[simp] theorem modifyByte_resetReq (a : Word) (f : Byte → Byte) : (s.modifyByte a f).resetReq = s.resetReq := by simp [State.modifyByte]
@[simp] theorem modifyByte_drawIndex (a : Word) (f : Byte → Byte) : (s.modifyByte a f).drawIndex = s.drawIndex := by simp [State.modifyByte]
@[simp] theorem modifyByte_lock (a : Word) (f : Byte → Byte) : (s.modifyByte a f).lock = false := rfl

end Sys2Proof.Machine
end

