-- ==== Sys2Proof/Laws/Memory.lean ====
section
/-! SUPPORT. Memory: every operation keeps the canonical form, and a read after a write gives what was written there and
what was there before elsewhere (20_memory.md R71, R82). -/

namespace Sys2Proof.Machine

theorem wfFrom_mono {m : Memory} {lo lo' : Nat} (h : lo' ≤ lo) (hm : Memory.wfFrom lo m = true) :
    Memory.wfFrom lo' m = true := by
  cases m with
  | nil => rfl
  | cons c rest =>
    obtain ⟨k, v⟩ := c
    simp only [Memory.wfFrom, Bool.and_eq_true, decide_eq_true_eq] at hm ⊢
    exact ⟨⟨⟨le_trans h hm.1.1.1, hm.1.1.2⟩, hm.1.2⟩, hm.2⟩

/-- A write keeps the canonical form. -/
theorem write_wfFrom {m : Memory} {lo a : Nat} (b : Byte) (hlo : lo ≤ a) (ha : a < 2 ^ 32)
    (hm : Memory.wfFrom lo m = true) : Memory.wfFrom lo (Memory.write m a b) = true := by
  induction m generalizing lo with
  | nil =>
    by_cases hb : b = Memory.unlisted
    · simp [Memory.write, hb, Memory.wfFrom]
    · simp only [Memory.write, if_neg hb, Memory.wfFrom, Bool.and_eq_true, decide_eq_true_eq, and_true]
      exact ⟨⟨hlo, ha⟩, hb⟩
  | cons c rest ih =>
    obtain ⟨k, v⟩ := c
    simp only [Memory.wfFrom, Bool.and_eq_true, decide_eq_true_eq] at hm
    obtain ⟨⟨⟨h1, h2⟩, h3⟩, h4⟩ := hm
    rw [Memory.write]
    by_cases hak : a < k
    · rw [if_pos hak]
      split
      · simp only [Memory.wfFrom, Bool.and_eq_true, decide_eq_true_eq]
        exact ⟨⟨⟨h1, h2⟩, h3⟩, h4⟩
      · next hb =>
        simp only [Memory.wfFrom, Bool.and_eq_true, decide_eq_true_eq]
        exact ⟨⟨⟨hlo, ha⟩, hb⟩, ⟨⟨Nat.succ_le_of_lt hak, h2⟩, h3⟩, h4⟩
    · rw [if_neg hak]
      by_cases hek : a = k
      · rw [if_pos hek]
        split
        · exact wfFrom_mono (Nat.le_succ_of_le h1) h4
        · next hb =>
          simp only [Memory.wfFrom, Bool.and_eq_true, decide_eq_true_eq]
          exact ⟨⟨⟨hlo, ha⟩, hb⟩, hek ▸ h4⟩
      · rw [if_neg hek]
        simp only [Memory.wfFrom, Bool.and_eq_true, decide_eq_true_eq]
        exact ⟨⟨⟨h1, h2⟩, h3⟩, ih (by omega) h4⟩

/-- A write to an address of the address space keeps the canonical form. -/
theorem write_wf {m : Memory} (a : Word) (b : Byte) (hm : Memory.wf m = true) :
    Memory.wf (Memory.write m a.toNat b) = true :=
  write_wfFrom b (Nat.zero_le _) a.isLt hm

theorem read_below {m : Memory} {lo a : Nat} (hm : Memory.wfFrom lo m = true) (ha : a < lo) :
    Memory.read m a = Memory.unlisted := by
  cases m with
  | nil => rfl
  | cons c rest =>
    obtain ⟨k, v⟩ := c
    simp only [Memory.wfFrom, Bool.and_eq_true, decide_eq_true_eq] at hm
    have h : a < k := by omega
    rw [Memory.read, if_neg (by omega), if_pos h]

theorem read_write_from {m : Memory} {lo : Nat} (a k : Nat) (b : Byte) (hm : Memory.wfFrom lo m = true) :
    Memory.read (Memory.write m a b) k = if k = a then b else Memory.read m k := by
  induction m generalizing lo with
  | nil =>
    by_cases hb : b = Memory.unlisted <;> by_cases hk : k = a <;> simp [Memory.write, Memory.read, hb, hk]
  | cons c rest ih =>
    obtain ⟨q, v⟩ := c
    simp only [Memory.wfFrom, Bool.and_eq_true, decide_eq_true_eq] at hm
    obtain ⟨⟨⟨h1, h2⟩, h3⟩, h4⟩ := hm
    rw [Memory.write]
    by_cases haq : a < q
    · rw [if_pos haq]
      by_cases hb : b = Memory.unlisted
      · rw [if_pos hb]
        by_cases hk : k = a
        · subst hk; rw [if_pos rfl, Memory.read, if_neg (by omega), if_pos haq, hb]
        · rw [if_neg hk]
      · rw [if_neg hb]
        by_cases hk : k = a
        · rw [if_pos hk, Memory.read, if_pos hk]
        · rw [if_neg hk, Memory.read, if_neg hk]
          by_cases hka : k < a
          · rw [if_pos hka, Memory.read, if_neg (by omega), if_pos (by omega)]
          · rw [if_neg hka]
    · rw [if_neg haq]
      by_cases hek : a = q
      · subst hek
        rw [if_pos rfl]
        by_cases hb : b = Memory.unlisted
        · rw [if_pos hb, Memory.read]
          by_cases hk : k = a
          · rw [if_pos hk, hb, read_below h4 (by omega)]
          · rw [if_neg hk, if_neg hk]
            by_cases hka : k < a
            · rw [if_pos hka, read_below h4 (by omega)]
            · rw [if_neg hka]
        · rw [if_neg hb, Memory.read, Memory.read]
          by_cases hk : k = a
          · rw [if_pos hk, if_pos hk]
          · simp only [if_neg hk]
      · rw [if_neg hek, Memory.read, Memory.read, ih h4]
        by_cases hk : k = a
        · subst hk; simp [hek, haq]
        · simp only [if_neg hk]

/-- A read after a write: the byte written at its address, every other byte as it was. -/
theorem read_write {m : Memory} (a k : Nat) (b : Byte) (hm : Memory.wf m = true) :
    Memory.read (Memory.write m a b) k = if k = a then b else Memory.read m k :=
  read_write_from a k b hm

/-- The memory after reset is in its canonical form. -/
theorem reset_mem_wf : Memory.wf State.reset.mem = true := rfl

/-! ### The address map (20_memory.md R80) -/

/-- What backs an address depends on the map only. -/
theorem allBacked_congr {s t : State} (h : t.memMap = s.memMap) (a : Word) (n : Nat) (p : Backing → Bool) :
    t.allBacked a n p = s.allBacked a n p := by
  simp only [State.allBacked, State.backing, h]

theorem backed_congr {s t : State} (h : t.memMap = s.memMap) (a : Word) (n : Nat) : t.backed a n = s.backed a n :=
  allBacked_congr h a n _

theorem ramAt_congr {s t : State} (h : t.memMap = s.memMap) (a : Word) (n : Nat) : t.ramAt a n = s.ramAt a n :=
  allBacked_congr h a n _

theorem allBacked_iff {s : State} {a : Word} {n : Nat} {p : Backing → Bool} :
    s.allBacked a n p = true ↔ ∀ j < n, p (s.backing (a + BitVec.ofNat 32 j)) = true := by
  simp [State.allBacked]

/-- Plain memory is what backs each byte of a range that is plain memory. -/
theorem backing_of_ramAt {s : State} {a : Word} {n : Nat} (h : s.ramAt a n = true) (j : Nat) (hj : j < n) :
    s.backing (a + BitVec.ofNat 32 j) = .ram := by
  simpa using allBacked_iff.mp h j hj

/-- Plain memory backs its addresses. -/
theorem backed_of_ramAt {s : State} {a : Word} {n : Nat} (h : s.ramAt a n = true) : s.backed a n = true :=
  allBacked_iff.mpr fun j hj => by simp [backing_of_ramAt h j hj]

/-- Plain memory everywhere, as after reset, backs every access. -/
theorem ramAt_of_allRam {s : State} (h : s.memMap = MemMap.allRam) (a : Word) (n : Nat) : s.ramAt a n = true :=
  allBacked_iff.mpr fun j _ => by
    have := (a + BitVec.ofNat 32 j).isLt
    simp only [State.backing, h, MemMap.allRam, MemMap.backing]
    rw [if_pos ⟨Nat.zero_le _, by omega⟩]; rfl

/-- An access to plain memory reaches no device. -/
theorem logAccess_of_ramAt {s : State} {a : Word} {n : Nat} (h : s.ramAt a n = true) (v : Option Word) :
    s.logAccess a n v = s :=
  if_pos (allBacked_iff.mpr fun j hj => by simp [backing_of_ramAt h j hj, noDevice])

theorem afterLoad_of_ramAt {s : State} {a : Word} {n : Nat} (h : s.ramAt a n = true) : s.afterLoad a n = s :=
  logAccess_of_ramAt h _

/-- A read of a byte of plain memory gives what memory holds there. -/
theorem readByte_of_ram {s : State} {a : Word} (h : s.backing a = .ram) (n : Nat) :
    s.readByte n a = Memory.read s.mem a.toNat := by
  simp [State.readByte, h]

theorem load8_of_ramAt {s : State} {a : Word} (h : s.ramAt a 1 = true) : s.load8 a = Memory.read s.mem a.toNat :=
  readByte_of_ram (by simpa using backing_of_ramAt h 0 (by omega)) 1

theorem load16_of_ramAt {s : State} {a : Word} (h : s.ramAt a 2 = true) :
    s.load16 a = Memory.read s.mem a.toNat ++ Memory.read s.mem (a + 1).toNat := by
  rw [State.load16, readByte_of_ram (by simpa using backing_of_ramAt h 0 (by omega)),
    readByte_of_ram (a := a + 1) (backing_of_ramAt h 1 (by omega))]

theorem load32_of_ramAt {s : State} {a : Word} (h : s.ramAt a 4 = true) :
    s.load32 a = (Memory.read s.mem a.toNat ++ Memory.read s.mem (a + 1).toNat) ++
      (Memory.read s.mem (a + 2).toNat ++ Memory.read s.mem (a + 3).toNat) := by
  rw [State.load32, readByte_of_ram (by simpa using backing_of_ramAt h 0 (by omega)),
    readByte_of_ram (a := a + 1) (backing_of_ramAt h 1 (by omega)), readByte_of_ram (a := a + 2) (backing_of_ramAt h 2 (by omega)),
    readByte_of_ram (a := a + 3) (backing_of_ramAt h 3 (by omega))]

/-! ### The stores of a state -/

theorem writeByte_wf {s : State} (a : Word) (b : Byte) (h : Memory.wf s.mem = true) :
    Memory.wf (s.writeByte a b).mem = true := by
  rw [writeByte_mem]; split
  · exact write_wf a b h
  · exact h

theorem store8_wf {s : State} (a : Word) (b : Byte) (h : Memory.wf s.mem = true) : Memory.wf (s.store8 a b).mem = true := by
  simp only [State.store8, logAccess_mem]; exact writeByte_wf a b h

theorem store16_wf {s : State} (a : Word) (v : Half) (h : Memory.wf s.mem = true) :
    Memory.wf (s.store16 a v).mem = true := by
  simp only [State.store16, logAccess_mem]; exact writeByte_wf _ _ (writeByte_wf _ _ h)

theorem store32_wf {s : State} (a v : Word) (h : Memory.wf s.mem = true) : Memory.wf (s.store32 a v).mem = true := by
  simp only [State.store32, logAccess_mem]
  exact writeByte_wf _ _ (writeByte_wf _ _ (writeByte_wf _ _ (writeByte_wf _ _ h)))

theorem modifyByte_wf {s : State} (a : Word) (f : Byte → Byte) (h : Memory.wf s.mem = true) :
    Memory.wf (s.modifyByte a f).mem = true :=
  store8_wf (s := ({ s with lock := true } : State).afterLoad a 1) a _ (by rw [afterLoad_mem]; exact h)

/-- Every byte after a byte was stored: the byte where plain memory took it, every other as it was. -/
theorem read_writeByte {s : State} (a : Word) (b : Byte) (k : Nat) (h : Memory.wf s.mem = true) :
    Memory.read (s.writeByte a b).mem k = if k = a.toNat ∧ s.backing a = .ram then b else Memory.read s.mem k := by
  rw [writeByte_mem]
  by_cases hr : s.backing a = .ram
  · rw [if_pos hr, read_write _ _ _ h]; simp [hr]
  · rw [if_neg hr]; simp [hr]

theorem writeByte_backing {s : State} (a : Word) (b : Byte) (k : Word) : (s.writeByte a b).backing k = s.backing k := by
  simp only [State.backing, writeByte_memMap]

/-- Every byte after a byte store: only plain memory takes it. -/
theorem read_store8 {s : State} (a : Word) (b : Byte) (k : Nat) (h : Memory.wf s.mem = true) :
    Memory.read (s.store8 a b).mem k = if k = a.toNat ∧ s.backing a = .ram then b else Memory.read s.mem k := by
  simp only [State.store8, logAccess_mem]; exact read_writeByte a b k h

/-- Every byte after a halfword store: the most significant byte at the lower address, the later store on top. -/
theorem read_store16 {s : State} (a : Word) (v : Half) (k : Nat) (h : Memory.wf s.mem = true) :
    Memory.read (s.store16 a v).mem k =
      if k = (a + 1).toNat ∧ s.backing (a + 1) = .ram then v.extractLsb' 0 8
      else if k = a.toNat ∧ s.backing a = .ram then v.extractLsb' 8 8 else Memory.read s.mem k := by
  simp only [State.store16, logAccess_mem]
  rw [read_writeByte _ _ _ (writeByte_wf _ _ h), read_writeByte _ _ _ h, writeByte_backing]

/-- Every byte after a word store: the most significant byte at the lowest address. -/
theorem read_store32 {s : State} (a v : Word) (k : Nat) (h : Memory.wf s.mem = true) :
    Memory.read (s.store32 a v).mem k =
      if k = (a + 3).toNat ∧ s.backing (a + 3) = .ram then v.extractLsb' 0 8
      else if k = (a + 2).toNat ∧ s.backing (a + 2) = .ram then v.extractLsb' 8 8
      else if k = (a + 1).toNat ∧ s.backing (a + 1) = .ram then v.extractLsb' 16 8
      else if k = a.toNat ∧ s.backing a = .ram then v.extractLsb' 24 8 else Memory.read s.mem k := by
  simp only [State.store32, logAccess_mem]
  rw [read_writeByte _ _ _ (writeByte_wf _ _ (writeByte_wf _ _ (writeByte_wf _ _ h))),
    read_writeByte _ _ _ (writeByte_wf _ _ (writeByte_wf _ _ h)), read_writeByte _ _ _ (writeByte_wf _ _ h),
    read_writeByte _ _ _ h]
  simp only [writeByte_backing]

/-- What a store records of itself: nothing for plain memory, otherwise one write (20_memory.md R78). -/
theorem store8_devLog {s : State} (a : Word) (b : Byte) :
    (s.store8 a b).devLog = (s.logAccess a 1 (some (b.zeroExtend 32))).devLog := by
  simp only [State.store8, logAccess_devLog, writeByte_devLog, allBacked_congr (writeByte_memMap s a b)]

theorem store16_devLog {s : State} (a : Word) (v : Half) :
    (s.store16 a v).devLog = (s.logAccess a 2 (some (v.zeroExtend 32))).devLog := by
  simp only [State.store16, logAccess_devLog, writeByte_devLog, allBacked_congr (writeByte_memMap _ _ _)]

theorem store32_devLog {s : State} (a v : Word) : (s.store32 a v).devLog = (s.logAccess a 4 (some v)).devLog := by
  simp only [State.store32, logAccess_devLog, writeByte_devLog, allBacked_congr (writeByte_memMap _ _ _)]

end Sys2Proof.Machine
end

