-- ==== Sys2Proof/Laws/Operands.lean ====
section
/-! SUPPORT. The operand forms as numbers: alignment, targets, shift counts, extensions. -/

namespace Sys2Proof.Machine

/-- A halfword access is aligned when its address is even. -/
theorem aligned2_iff (a : Word) : aligned2 a = true ↔ a.toNat % 2 = 0 := by
  simp only [aligned2, decide_eq_true_eq]
  constructor
  · intro h; simpa using congrArg BitVec.toNat h
  · intro h; apply BitVec.eq_of_toNat_eq; simpa using h

/-- A word access is aligned when its address is a multiple of 4. -/
theorem aligned4_iff (a : Word) : aligned4 a = true ↔ a.toNat % 4 = 0 := by
  simp only [aligned4, decide_eq_true_eq]
  constructor
  · intro h; simpa using congrArg BitVec.toNat h
  · intro h; apply BitVec.eq_of_toNat_eq; simpa using h

/-- The low bit of a word is its remainder by 2. -/
theorem lowBit_eq_false_iff (a : Word) : a.getLsbD 0 = false ↔ a.toNat % 2 = 0 := by
  rw [← Bool.not_eq_true, BitVec.getLsbD, Nat.testBit_zero]
  simp

/-- A word with its two low-order bits cleared lies at a word boundary. -/
@[simp] theorem wordAlign_lowBits (a : Word) : (wordAlign a).extractLsb' 0 2 = 0 := by
  unfold wordAlign
  apply BitVec.eq_of_getLsbD_eq
  intro i hi
  have : i = 0 ∨ i = 1 := by omega
  rcases this with h | h <;> subst h <;> simp

/-- A branch target lies at a word boundary (44_branch.md R250). -/
@[simp] theorem target_lowBits (a b : Word) : (wordAlign a + b <<< 2).extractLsb' 0 2 = 0 := by
  apply BitVec.eq_of_toNat_eq
  have h : (wordAlign a).toNat % 4 = 0 := (aligned4_iff _).mp (by simp [aligned4])
  have e : b.toNat <<< 2 = 4 * b.toNat := by rw [Nat.shiftLeft_eq]; omega
  simp only [BitVec.extractLsb'_toNat, BitVec.toNat_add, BitVec.toNat_shiftLeft, e]
  simp
  omega

/-- The count of a register shift is the register modulo 32 (43_muldiv_shift.md R227). -/
theorem shiftCount_eq (x : Word) : shiftCount x = x.toNat % 32 := by simp [shiftCount]

/-- The count of a three-operand shift is the immediate modulo 32 (43_muldiv_shift.md R227). -/
theorem shiftCountImm_eq (x : BitVec 16) : shiftCountImm x = x.toNat % 32 := by simp [shiftCountImm]

/-- A sign-extended operand keeps its value. -/
theorem sext_toInt {n : Nat} (h : n ≤ 32) (x : BitVec n) : (sext x).toInt = x.toInt :=
  BitVec.toInt_signExtend_of_le h

/-- A zero-extended operand keeps its value. -/
theorem zext_toNat {n : Nat} (h : n ≤ 32) (x : BitVec n) : (zext x).toNat = x.toNat := by
  simp only [zext, BitVec.truncate_eq_setWidth, BitVec.toNat_setWidth]
  exact Nat.mod_eq_of_lt (lt_of_lt_of_le x.isLt (Nat.pow_le_pow_right (by omega) h))

end Sys2Proof.Machine
end

