-- ==== Sys2Proof/Laws/Registers.lean ====
section
/-! SUPPORT. General registers: what a read gives after each operation (10_state.md R21, R22). -/

namespace Sys2Proof.Machine

variable (s : State)

/-- A read depends on the register file, the two stack pointers and SM only. -/
theorem reg_congr {s t : State} (hg : t.gpr = s.gpr) (hi : t.spi = s.spi) (hu : t.spu = s.spu)
    (hm : t.psw.sm = s.psw.sm) (r : Reg) : t.reg r = s.reg r := by
  unfold State.reg; rw [hg, hi, hu, hm]

/-- A read after a write: the value in the register written, every other register as it was. -/
theorem reg_setReg (d : Reg) (v : Word) (r : Reg) : (s.setReg d v).reg r = if r = d then v else s.reg r := by
  unfold State.reg State.setReg
  have hlt : ∀ x : Reg, ¬ x.toNat < 15 → x = 15#4 := fun x h => by
    apply BitVec.eq_of_toNat_eq; have := x.isLt; simp at h ⊢; omega
  by_cases hd : d.toNat < 15 <;> by_cases hr : r.toNat < 15
  · simp only [dif_pos hd, dif_pos hr, Vector.getElem_set]
    by_cases h : r = d
    · subst h; simp
    · have : ¬ d.toNat = r.toNat := fun e => h (BitVec.eq_of_toNat_eq e.symm)
      simp [h, this]
  · have : r ≠ d := fun e => hr (e ▸ hd)
    simp [hd, hr, this]
  · have : r ≠ d := fun e => hd (e ▸ hr)
    simp only [dif_neg hd, dif_pos hr, this, if_false]
    split <;> rfl
  · have e : r = d := by rw [hlt r hr, hlt d hd]
    subst e
    by_cases hm : s.psw.sm = true <;> simp [hr, hm]

@[simp] theorem reg_setReg_same (d : Reg) (v : Word) : (s.setReg d v).reg d = v := by simp [reg_setReg]

@[simp] theorem reg_advance (n : Word) (r : Reg) : (s.advance n).reg r = s.reg r := rfl

@[simp] theorem reg_jump (a : Word) (r : Reg) : (s.jump a).reg r = s.reg r := rfl

@[simp] theorem reg_setC (c : Bool) (r : Reg) : (s.setC c).reg r = s.reg r := rfl

@[simp] theorem reg_tick (r : Reg) : s.tick.reg r = s.reg r := rfl

@[simp] theorem reg_logAccess (a : Word) (n : Nat) (v : Option Word) (r : Reg) : (s.logAccess a n v).reg r = s.reg r :=
  reg_congr (by simp) (by simp) (by simp) (by simp) r

@[simp] theorem reg_afterLoad (a : Word) (n : Nat) (r : Reg) : (s.afterLoad a n).reg r = s.reg r := reg_logAccess s a n none r

@[simp] theorem reg_store8 (a : Word) (b : Byte) (r : Reg) : (s.store8 a b).reg r = s.reg r :=
  reg_congr (by simp) (by simp) (by simp) (by simp) r

@[simp] theorem reg_store16 (a : Word) (v : Half) (r : Reg) : (s.store16 a v).reg r = s.reg r :=
  reg_congr (by simp) (by simp) (by simp) (by simp) r

@[simp] theorem reg_store32 (a v : Word) (r : Reg) : (s.store32 a v).reg r = s.reg r :=
  reg_congr (by simp) (by simp) (by simp) (by simp) r

@[simp] theorem reg_modifyByte (a : Word) (f : Byte → Byte) (r : Reg) : (s.modifyByte a f).reg r = s.reg r :=
  reg_congr (by simp) (by simp) (by simp) (by simp) r

@[simp] theorem reg_withAcc (x : Acc) (r : Reg) : ({ s with acc := x } : State).reg r = s.reg r := rfl

@[simp] theorem reg_withLock (x : Bool) (r : Reg) : ({ s with lock := x } : State).reg r = s.reg r := rfl

@[simp] theorem reg_withFpsr (x : Fpsr) (r : Reg) : ({ s with fpsr := x } : State).reg r = s.reg r := rfl

/-- A write with SM = 0 leaves the user stack pointer as it is (R22). -/
theorem setReg_spu_of_interruptMode (h : s.psw.sm = false) (d : Reg) (v : Word) : (s.setReg d v).spu = s.spu := by
  unfold State.setReg; split
  · rfl
  · simp [h]

/-- A write with SM = 1 leaves the interrupt stack pointer as it is (R22). -/
theorem setReg_spi_of_userMode (h : s.psw.sm = true) (d : Reg) (v : Word) : (s.setReg d v).spi = s.spi := by
  unfold State.setReg; split
  · rfl
  · simp

/-- A write of a register below R15 leaves both stack pointers as they are. -/
theorem setReg_stackPointers (d : Reg) (v : Word) (h : d ≠ 15) : (s.setReg d v).spi = s.spi ∧ (s.setReg d v).spu = s.spu := by
  have : d.toNat < 15 := by
    rcases Nat.lt_or_ge d.toNat 15 with h' | h'
    · exact h'
    · exact absurd (BitVec.eq_of_toNat_eq (by have := d.isLt; simp; omega) : d = 15#4) h
  simp [State.setReg, this]

end Sys2Proof.Machine
end

