-- ==== Sys2Proof/Laws/Outcomes.lean ====
section
/-! SUPPORT. What each shared ending of an instruction can do, said once: the frames of a register write, of a condition bit
write, of a jump, of a store, of the entry and the return of an exception, of an FPU operation. -/

namespace Sys2Proof.Machine

variable (s : State)

/-! ### Frames -/

theorem regsKeptBut_refl (regs : List Reg) : RegsKeptBut regs s s := ⟨fun _ _ => rfl, fun _ => rfl, fun _ => rfl⟩

theorem keepsBut_refl (parts : List Part) : KeepsBut parts s s := by simp [KeepsBut]

/-- A register write changes no register but its destination. -/
theorem regsKeptBut_setReg (d : Reg) (v : Word) : RegsKeptBut [d] s (s.setReg d v) :=
  ⟨fun r hr => by simp only [List.mem_singleton] at hr; simp [reg_setReg, hr],
    fun h => setReg_spu_of_interruptMode s h d v, fun h => setReg_spi_of_userMode s h d v⟩

/-- A register write changes nothing that is no register. -/
theorem keepsBut_setReg (parts : List Part) (d : Reg) (v : Word) : KeepsBut parts s (s.setReg d v) := by simp [KeepsBut]

/-- Where the register file, both stack pointers and SM are the same, every register reads the same. -/
theorem regsKeptBut_of_banks {s t : State} (regs : List Reg) (hg : t.gpr = s.gpr) (hi : t.spi = s.spi) (hu : t.spu = s.spu)
    (hm : t.psw.sm = s.psw.sm) : RegsKeptBut regs s t :=
  ⟨fun r _ => reg_congr hg hi hu hm r, fun _ => hu, fun _ => hi⟩

theorem RegsKeptBut.trans {regs regs' all : List Reg} {s t u : State} (h : RegsKeptBut regs s t) (h' : RegsKeptBut regs' t u)
    (hm : t.psw.sm = s.psw.sm) (hr : ∀ r ∈ regs, r ∈ all) (hr' : ∀ r ∈ regs', r ∈ all) : RegsKeptBut all s u :=
  ⟨fun r n => (h'.1 r fun m => n (hr' r m)).trans (h.1 r fun m => n (hr r m)),
    fun e => (h'.2.1 (hm.trans e)).trans (h.2.1 e), fun e => (h'.2.2 (hm.trans e)).trans (h.2.2 e)⟩

/-- What keeps all but some parts keeps all but more of them. -/
theorem KeepsBut.mono {p q : List Part} {s t : State} (h : KeepsBut p s t) (hpq : ∀ x ∈ p, x ∈ q) : KeepsBut q s t := by
  obtain ⟨h1, h2, h3, h4, h5, h6, h7, h8, h9, h10⟩ := h
  exact ⟨fun n => h1 fun m => n (hpq _ m), fun n => h2 fun m => n (hpq _ m), fun n => h3 fun m => n (hpq _ m),
    fun n => h4 fun m => n (hpq _ m), fun n => h5 fun m => n (hpq _ m), fun n => h6 fun m => n (hpq _ m),
    fun n => h7 fun m => n (hpq _ m), fun n => h8 fun m => n (hpq _ m), fun n => h9 fun m => n (hpq _ m), h10⟩

/-! ### How an instruction ends -/

variable {s} {i : Instr}

/-- An instruction that ends in `writeBack` completes, writing its destination only. -/
theorem writesReg_of_writeBack {d : Reg} {v len : Word} (parts : List Part := [])
    (h : exec i s = s.writeBack d v len) : WritesReg i s d v len parts :=
  ⟨_, h, by simp, regsKeptBut_setReg s d v, by simp [KeepsBut], by simp⟩

/-- An instruction that ends in `writeBackC` completes, writing its destination and the condition bit only. -/
theorem writesRegAndC_of_writeBackC {d : Reg} {v len : Word} {c : Bool}
    (h : exec i s = s.writeBackC d v c len) : WritesRegAndC i s d v c len :=
  ⟨_, h, by simp, by simp, regsKeptBut_setReg s d v, by simp [KeepsBut], by simp⟩

/-- An instruction that ends in `writeC` completes, writing the condition bit only. -/
theorem writesC_of_writeC {c : Bool} {len : Word} (h : exec i s = s.writeC c len) : WritesC i s c len :=
  ⟨_, h, by simp, regsKeptBut_of_banks _ rfl rfl rfl rfl, by simp [KeepsBut], by simp⟩

/-- A jump changes the program counter only. -/
theorem goesTo_of_jump {target : Word} (h : exec i s = .next (s.jump target)) : GoesTo i s target :=
  ⟨_, h, regsKeptBut_of_banks _ rfl rfl rfl rfl, by simp [KeepsBut], by simp⟩

/-- An instruction that only goes on changes the program counter only. -/
theorem goesTo_of_advance {len : Word} (h : exec i s = .next (s.advance len)) : GoesTo i s (s.pc + len) :=
  ⟨_, h, regsKeptBut_of_banks _ rfl rfl rfl rfl, by simp [KeepsBut], by simp⟩

/-- A conditional branch goes to its target when taken, otherwise on. -/
theorem goesTo_of_branchIf {taken : Bool} {target len : Word} (h : exec i s = s.branchIf taken target len) :
    GoesTo i s (if taken = true then target else s.pc + len) := by
  cases taken
  · exact goesTo_of_advance h
  · exact goesTo_of_jump h

/-! ### Data accesses -/

/-- A data access that is aligned and backed does what it does. -/
theorem access_of_backed {ok : Bool} {a : Word} {n : Nat} {done : Result} (hok : ok = true) (hb : s.backed a n = true) :
    s.access ok a n done = done := by
  simp [State.access, hok, hb]

/-- A data access that is not aligned enters the address exception, everything else as it was. -/
theorem access_of_misaligned {ok : Bool} {a : Word} {n : Nat} {done : Result} (hok : ok = false) :
    s.access ok a n done = .next (s.eitEntry .ae) := by
  simp [State.access, hok]

/-- An aligned data access to an address that the platform does not back is refused. -/
theorem access_of_unbacked {ok : Bool} {a : Word} {n : Nat} {done : Result} (hok : ok = true) (hb : s.backed a n = false) :
    s.access ok a n done = .refused (.unbackedAddress a) := by
  simp [State.access, hok, hb]

/-- A data access that answers a next state is aligned and backed, or it entered the address exception. -/
theorem access_cases {s t : State} {ok : Bool} {a : Word} {n : Nat} {done : Result} (h : s.access ok a n done = .next t) :
    (ok = true ∧ s.backed a n = true ∧ done = .next t) ∨ (ok = false ∧ t = s.eitEntry .ae) := by
  unfold State.access at h
  split at h
  · split at h
    · next hok hb => exact .inl ⟨hok, hb, h⟩
    · cases h
  · next hok => exact .inr ⟨by simpa using hok, by simpa using h.symm⟩

/-- A load from plain memory that finds its address aligned writes its destination only. -/
theorem writesReg_of_loadTo {ok : Bool} {a : Word} {n : Nat} {d : Reg} {v len : Word}
    (h : exec i s = s.loadTo ok a n d v len) (hok : ok = true) (hr : s.ramAt a n = true) : WritesReg i s d v len := by
  rw [State.loadTo, access_of_backed hok (backed_of_ramAt hr), afterLoad_of_ramAt hr] at h
  exact writesReg_of_writeBack [] h

/-- A load ends in the address exception or makes its read and writes its destination. -/
theorem loadTo_cases {s t : State} {ok : Bool} {a : Word} {n : Nat} {d : Reg} {v len : Word}
    (h : s.loadTo ok a n d v len = .next t) :
    (ok = true ∧ s.backed a n = true ∧ t = ((s.afterLoad a n).setReg d v).advance len) ∨
      (ok = false ∧ t = s.eitEntry .ae) :=
  (access_cases h).imp (fun ⟨h1, h2, h3⟩ => ⟨h1, h2, by simpa [State.writeBack] using h3.symm⟩) id

/-- A store ends in the address exception or leaves the stored state. -/
theorem storeAs_cases {s t u : State} {ok : Bool} {a : Word} {n : Nat} {len : Word}
    (h : s.storeAs ok a n u len = .next t) :
    (ok = true ∧ s.backed a n = true ∧ t = u.advance len) ∨ (ok = false ∧ t = s.eitEntry .ae) :=
  (access_cases h).imp (fun ⟨h1, h2, h3⟩ => ⟨h1, h2, by simpa using h3.symm⟩) id

/-- The accesses of devices after a load: one read more, unless all its bytes are backed by no device (20_memory.md R78). -/
theorem afterLoad_devLog (s : State) (a : Word) (n : Nat) :
    (s.afterLoad a n).devLog =
      if s.allBacked a n noDevice = true then s.devLog else { addr := a.toNat, width := n, stored := none } :: s.devLog :=
  logAccess_devLog s a n none

/-- After an access to plain memory no device has seen anything. -/
theorem logAccess_devLog_of_ramAt {s : State} {a : Word} {n : Nat} (h : s.ramAt a n = true) (v : Option Word) :
    (s.logAccess a n v).devLog = s.devLog := by
  rw [logAccess_of_ramAt h]

/-! ### Control registers and the fetch -/

/-- A write of a control register changes that register, or nothing, or names none (10_state.md R24, R31). -/
theorem writeCR_cases {s t : State} {cr : CReg} {v : Word} (h : s.writeCR cr v = some t) :
    (cr = 0 ∧ t = { s with psw := Psw.ofWord v }) ∨ (cr = 1 ∧ t = s) ∨ (cr = 2 ∧ t = { s with spi := v }) ∨
    (cr = 3 ∧ t = { s with spu := v }) ∨ (cr = 6 ∧ t = { s with bpc := v &&& 0xFFFFFFFE }) ∨
    (cr = 7 ∧ t = { s with fpsr := s.fpsr.write v }) := by
  unfold State.writeCR at h
  repeat' split at h
  all_goals first | (cases h; done) | (cases h; simp_all)

/-- With no store in the instruction queue a fetch from plain memory sees what memory holds (20_memory.md R87). -/
theorem fetch8_of_empty_queue {s : State} (h : s.queue = []) (a : Word) (hr : s.backing a = .ram) : s.fetch8 a = byteAt s a := by
  simp [State.fetch8, h, hr, queueView, byteAt]

/-! ### Stores -/

theorem memKeptBut_store8 (hm : Memory.wf s.mem = true) (a : Word) (b : Byte) : MemKeptBut a 1 s (s.store8 a b) := by
  intro k hk
  have h0 : k ≠ a.toNat := by simpa using hk 0 (by omega)
  rw [read_store8 a b k hm, if_neg fun e => h0 e.1]

theorem memKeptBut_store16 (hm : Memory.wf s.mem = true) (a : Word) (v : Half) : MemKeptBut a 2 s (s.store16 a v) := by
  intro k hk
  have h0 : k ≠ a.toNat := by simpa using hk 0 (by omega)
  have h1 : k ≠ (a + 1).toNat := hk 1 (by omega)
  rw [read_store16 a v k hm, if_neg fun e => h1 e.1, if_neg fun e => h0 e.1]

theorem memKeptBut_store32 (hm : Memory.wf s.mem = true) (a v : Word) : MemKeptBut a 4 s (s.store32 a v) := by
  intro k hk
  have h0 : k ≠ a.toNat := by simpa using hk 0 (by omega)
  have h1 : k ≠ (a + 1).toNat := hk 1 (by omega)
  have h2 : k ≠ (a + 2).toNat := hk 2 (by omega)
  have h3 : k ≠ (a + 3).toNat := hk 3 (by omega)
  rw [read_store32 a v k hm, if_neg fun e => h3 e.1, if_neg fun e => h2 e.1, if_neg fun e => h1 e.1, if_neg fun e => h0 e.1]

/-! ### Exceptions -/

/-- What the entry of an exception leaves as it is (60_exceptions.md R405). -/
theorem eitEntry_keeps (e : EitEvent) : KeepsBut [.c, .smIe, .backup, .bpc] s (s.eitEntry e) := by
  simp [KeepsBut]

theorem eitEntry_banks (e : EitEvent) : BanksKept s (s.eitEntry e) := ⟨rfl, rfl, rfl⟩

/-- What the return from an exception leaves as it is (45_eit_instructions.md R281). -/
theorem rteReturn_keeps : KeepsBut [.c, .smIe, .backup, .bpc] s s.rteReturn := by
  simp [KeepsBut]

theorem rteReturn_banks : BanksKept s s.rteReturn := ⟨rfl, rfl, rfl⟩

/-! ### FPU operations -/

/-- An FPU operation that triggers enters FPE with the cause bits written, nothing else (47_float_arith.md R327). -/
theorem fpe_of_fpEnd {d : Reg} {o : FpOutcome} (h : exec i s = s.fpEnd d o) (ht : s.fpsr.triggers o.causes = true) :
    exec i s = .next (({ s with fpsr := { s.fpsr with cause := o.causes } } : State).eitEntry .fpe) := by
  rw [h]; simp [State.fpEnd, ht]

/-- An FPU operation that does not trigger writes its destination (47_float_arith.md R327). -/
theorem writesReg_of_fpEnd {d : Reg} {o : FpOutcome} (h : exec i s = s.fpEnd d o) (ht : s.fpsr.triggers o.causes = false) :
    WritesReg i s d o.value 4 [.fpsr] := by
  refine ⟨_, by rw [h]; simp only [State.fpEnd, ht]; rfl, by simp, ?_, by simp [KeepsBut], by simp⟩
  exact ⟨fun r hr => by simp only [List.mem_singleton] at hr; simp [reg_setReg, hr],
    fun h => by simp [setReg_spu_of_interruptMode, h], fun h => by simp [setReg_spi_of_userMode, h]⟩

/-- An FPU operation that does not trigger raises the flags of what it detects (47_float_arith.md R327). -/
theorem fpsr_of_fpEnd {d : Reg} {o : FpOutcome} (h : exec i s = s.fpEnd d o) (ht : s.fpsr.triggers o.causes = false) :
    Completes i s fun t => t.fpsr = fpsrAfter s.fpsr o.causes :=
  ⟨_, by rw [h]; simp only [State.fpEnd, ht]; rfl, by simp [Fpsr.raiseFlags, fpsrAfter]⟩

end Sys2Proof.Machine
end

