-- ==== Sys2Proof/Tests/Slice0.lean ====
section
/-! SUPPORT. Tests of the model: ill-formed terms, words written out from the spec's encodings, one step of every instruction
against the vectors of spec/95_test_vectors.md and spec/96_test_vectors_fp.md, and for every statement with hypotheses a state and
operands that meet them. -/

namespace Sys2Proof.Tests

-- One theorem after the other: each kernel evaluation would otherwise hold a thread of its own.
set_option Elab.async false

open Sys2Proof.Machine

/-- The start state of the spec's vectors: the state after reset, at 0x1000. -/
def start : State := { State.reset with pc := 0x1000 }

/-- A state with some registers written. -/
def holding (s : State) (regs : List (Reg × Word)) : State := regs.foldl (fun s p => s.setReg p.1 p.2) s

/-- The instruction answers a next state that passes the check. -/
def answers (i : Instr) (s : State) (check : State → Bool) : Bool :=
  match exec i s with
  | .next t => check t
  | _ => false

/-- The bits decode to the instruction, and the instruction answers a next state that passes the check. -/
def runs (nbits w : Nat) (i : Instr) (s : State) (check : State → Bool) : Bool :=
  decodeTableWord nbits w == some i && answers i s check

/-! ### Ill-formed terms -/

/-- The one check of WellFormed refuses a control register number that names none (10_state.md R24). -/
theorem test_illFormed_control_register :
    (Instr.mvfc 1 4).wellFormed = false ∧ (Instr.mvtc 1 5).wellFormed = false ∧ (Instr.mvfc 1 8).wellFormed = false ∧
    (Instr.mvtc 1 15).wellFormed = false ∧ (Instr.mvtc 1 7).wellFormed = true := by decide

/-! ### Encodings written out bit by bit -/

/-- One word of every family, from the encodings that the instruction rules print. -/
theorem test_bits_of_families :
    decodeTableWord 16 0b0010000111000010 = some (.ld 1 2) ∧
    decodeTableWord 32 0b11101111100000000000000000000001 = some (.ld24 15 0x800001) ∧
    decodeTableWord 32 0b10000001101000101111111111111111 = some (.add3 1 2 0xFFFF) ∧
    decodeTableWord 16 0b0101111101011111 = some (.slli 15 31) ∧
    decodeTableWord 32 0b10110001000000100000000000010000 = some (.beq 1 2 0x10) ∧
    decodeTableWord 16 0b0001000011111111 = some (.trap 15) ∧
    decodeTableWord 16 0b0011000101110010 = some (.macwlo 1 2) ∧
    decodeTableWord 32 0b11010001000000100011000001000000 = some (.fmsub 0 1 2) ∧
    decodeTableWord 32 0b11010001000000000100000011000000 = some (.ftos 0 1) ∧
    decodeTableWord 32 0b10100111011101010000000000000000 = some (.bclr 7 0 5) := by decide +kernel

/-- Reserved patterns are no instruction: a fixed field that is not 0, an opcode of no row (30_encoding.md R118, R119, R133). -/
theorem test_reserved_patterns :
    decodeTableWord 16 0x0861 = none ∧ decodeTableWord 16 0x08F1 = none ∧ decodeTableWord 16 0x7001 = none ∧
    decodeTableWord 16 0x10D7 = none ∧ decodeTableWord 16 0xF001 = none ∧ decodeTableWord 32 0x91020001 = none ∧
    decodeTableWord 32 0xD1020001 = none ∧ decodeTableWord 32 0xC0000000 = none ∧ decodeTableWord 32 0xA8620000 = none ∧
    decodeTableWord 32 0x81420000 = none := by decide +kernel

/-! ### Load and store (40_load_store.md) -/

theorem test_stb : runs 16 0x2102 (.stb 1 2) (holding start [(1, 0x12345678), (2, 0x2003)])
    (fun t => t.pc == 0x1002 && byteAt t 0x2003 == 0x78) = true := by decide +kernel

theorem test_ldb : runs 16 0x2384 (.ldb 3 4) (holding { start with mem := [(0x2003, 0x80)] } [(4, 0x2003)])
    (fun t => t.reg 3 == 0xFFFFFF80 && t.pc == 0x1002) = true := by decide +kernel

theorem test_sth : runs 16 0x2122 (.sth 1 2) (holding start [(1, 0x12345678), (2, 0x2002)])
    (fun t => t.pc == 0x1002 && byteAt t 0x2002 == 0x56 && byteAt t 0x2003 == 0x78) = true := by decide +kernel

theorem test_ldub : runs 16 0x2394 (.ldub 3 4) (holding { start with mem := [(0x2003, 0x80)] } [(4, 0x2003)])
    (fun t => t.reg 3 == 0x80 && t.pc == 0x1002) = true := by decide +kernel

theorem test_sth_inc : runs 16 0x2132 (.sthInc 1 2)
    (holding start [(1, 0xABCD), (2, 0x2000)])
    (fun t => t.reg 2 == 0x2002 && t.pc == 0x1002 && byteAt t 0x2000 == 0xAB && byteAt t 0x2001 == 0xCD) =
      true := by decide +kernel

theorem test_ldh : runs 16 0x25A6 (.ldh 5 6) (holding { start with mem := [(0x2002, 0x80), (0x2003, 0x1)] } [(6, 0x2002)])
    (fun t => t.reg 5 == 0xFFFF8001 && t.pc == 0x1002) = true := by decide +kernel

theorem test_st : runs 16 0x2142 (.st 1 2)
    (holding start [(1, 0x12345678), (2, 0x2000)])
    (fun t => t.pc == 0x1002 && byteAt t 0x2000 == 0x12 && byteAt t 0x2001 == 0x34 && byteAt t 0x2002 == 0x56 && byteAt t 0x2003 == 0x78) =
      true := by decide +kernel

theorem test_lduh : runs 16 0x25B6 (.lduh 5 6) (holding { start with mem := [(0x2002, 0x80), (0x2003, 0x1)] } [(6, 0x2002)])
    (fun t => t.reg 5 == 0x8001 && t.pc == 0x1002) = true := by decide +kernel

theorem test_unlock : runs 16 0x2152 (.unlock 1 2)
    (holding { start with lock := true } [(1, 0x6), (2, 0x3000)])
    (fun t => !t.lock && t.pc == 0x1002 && byteAt t 0x3000 == 0x0 && byteAt t 0x3001 == 0x0 && byteAt t 0x3002 == 0x0 && byteAt t 0x3003 == 0x6) =
      true := by decide +kernel

theorem test_ld : runs 16 0x21C2 (.ld 1 2)
    (holding { start with mem := [(0x2000, 0x12), (0x2001, 0x34), (0x2002, 0x56), (0x2003, 0x78)] } [(2, 0x2000)])
    (fun t => t.reg 1 == 0x12345678 && t.pc == 0x1002) =
      true := by decide +kernel

theorem test_st_pre_inc : runs 16 0x2162 (.stPreInc 1 2)
    (holding start [(1, 0x12345678), (2, 0x2000)])
    (fun t => t.reg 2 == 0x2004 && t.pc == 0x1002 && byteAt t 0x2004 == 0x12 && byteAt t 0x2005 == 0x34 && byteAt t 0x2006 == 0x56 && byteAt t 0x2007 == 0x78) =
      true := by decide +kernel

theorem test_lock : runs 16 0x21D2 (.lock 1 2) (holding { start with mem := [(0x3003, 0x5)] } [(2, 0x3000)])
    (fun t => t.reg 1 == 0x5 && t.lock && t.pc == 0x1002) = true := by decide +kernel

theorem test_st_pre_dec : runs 16 0x217F (.stPreDec 1 0xF)
    (holding { start with spi := 0x2004 } [(1, 0xCAFEBABE)])
    (fun t => t.spi == 0x2000 && t.pc == 0x1002 && byteAt t 0x2000 == 0xCA && byteAt t 0x2001 == 0xFE && byteAt t 0x2002 == 0xBA && byteAt t 0x2003 == 0xBE) =
      true := by decide +kernel

theorem test_ld_inc : runs 16 0x21E2 (.ldInc 1 2)
    (holding { start with mem := [(0x2000, 0x12), (0x2001, 0x34), (0x2002, 0x56), (0x2003, 0x78)] } [(2, 0x2000)])
    (fun t => t.reg 1 == 0x12345678 && t.reg 2 == 0x2004 && t.pc == 0x1002) =
      true := by decide +kernel

theorem test_stb_disp : runs 32 0xA1020003 (.stbDisp 1 3 2) (holding start [(1, 0x123456FF), (2, 0x2000)])
    (fun t => t.pc == 0x1004 && byteAt t 0x2003 == 0xFF) = true := by decide +kernel

theorem test_sth_disp : runs 32 0xA1220002 (.sthDisp 1 2 2) (holding start [(1, 0xFFFF1234), (2, 0x2000)])
    (fun t => t.pc == 0x1004 && byteAt t 0x2002 == 0x12 && byteAt t 0x2003 == 0x34) = true := by decide +kernel

theorem test_st_disp : runs 32 0xA1420004 (.stDisp 1 4 2)
    (holding start [(1, 0x12345678), (2, 0x2000)])
    (fun t => t.pc == 0x1004 && byteAt t 0x2004 == 0x12 && byteAt t 0x2005 == 0x34 && byteAt t 0x2006 == 0x56 && byteAt t 0x2007 == 0x78) =
      true := by decide +kernel

theorem test_ldb_disp : runs 32 0xA384FFFF (.ldbDisp 3 0xFFFF 4)
    (holding { start with mem := [(0x2000, 0x7F)] } [(4, 0x2001)])
    (fun t => t.reg 3 == 0x7F && t.pc == 0x1004) =
      true := by decide +kernel

theorem test_ldub_disp : runs 32 0xA3940001 (.ldubDisp 3 1 4) (holding { start with mem := [(0x2001, 0xFF)] } [(4, 0x2000)])
    (fun t => t.reg 3 == 0xFF && t.pc == 0x1004) = true := by decide +kernel

theorem test_ldh_disp : runs 32 0xA5A60002 (.ldhDisp 5 2 6)
    (holding { start with mem := [(0x2002, 0x7F), (0x2003, 0xFF)] } [(6, 0x2000)])
    (fun t => t.reg 5 == 0x7FFF && t.pc == 0x1004) =
      true := by decide +kernel

theorem test_lduh_disp : runs 32 0xA5B6FFFE (.lduhDisp 5 0xFFFE 6)
    (holding { start with mem := [(0x2002, 0xFF), (0x2003, 0xFE)] } [(6, 0x2004)])
    (fun t => t.reg 5 == 0xFFFE && t.pc == 0x1004) =
      true := by decide +kernel

theorem test_ld_disp : runs 32 0xA1C2FFFC (.ldDisp 1 0xFFFC 2)
    (holding { start with mem := [(0x2000, 0x12), (0x2001, 0x34), (0x2002, 0x56), (0x2003, 0x78)] } [(2, 0x2004)])
    (fun t => t.reg 1 == 0x12345678 && t.pc == 0x1004) =
      true := by decide +kernel

theorem test_ld_misaligned : runs 16 0x21C2 (.ld 1 2)
    (holding { start with psw := Psw.ofWord 0xC1 } [(1, 0xAAAAAAAA), (2, 0x2002)])
    (fun t => t.reg 1 == 0xAAAAAAAA && t.psw.image == 0xC180 && t.bpc == 0x1000 && t.pc == 0x30) =
      true := by decide +kernel

/-! ### Transfer (41_transfer.md) -/

theorem test_mv : runs 16 0x1182 (.mv 1 2) (holding start [(2, 0xDEADBEEF)])
    (fun t => t.reg 1 == 0xDEADBEEF && t.pc == 0x1002) = true := by decide +kernel

theorem test_mvfc : runs 16 0x1190 (.mvfc 1 0) { start with psw := Psw.ofWord 0xC1C1 }
    (fun t => t.reg 1 == 0xC1C1 && t.pc == 0x1002) = true := by decide +kernel

theorem test_mvtc : runs 16 0x17A1 (.mvtc 1 7) (holding start [(1, 0xFFFFFFFF)])
    (fun t => t.fpsr.image == 0xFC007D03 && t.pc == 0x1002) = true := by decide +kernel

theorem test_ldi8 : runs 16 0x61FF (.ldi8 1 0xFF) start
    (fun t => t.reg 1 == 0xFFFFFFFF && t.pc == 0x1002) = true := by decide +kernel

theorem test_ldi16 : runs 32 0x91F08000 (.ldi16 1 0x8000) start
    (fun t => t.reg 1 == 0xFFFF8000 && t.pc == 0x1004) = true := by decide +kernel

theorem test_seth : runs 32 0xD1C08000 (.seth 1 0x8000) (holding start [(1, 0xFFFF)])
    (fun t => t.reg 1 == 0x80000000 && t.pc == 0x1004) = true := by decide +kernel

theorem test_ld24 : runs 32 0xE2123456 (.ld24 2 0x123456) (holding start [(2, 0xFFFFFFFF)])
    (fun t => t.reg 2 == 0x123456 && t.pc == 0x1004) = true := by decide +kernel

/-! ### Compare, arithmetic, logic (42_compare_arith_logic.md) -/

theorem test_subv : runs 16 0x0102 (.subv 1 2) (holding start [(1, 0x80000000), (2, 0x1)])
    (fun t => t.reg 1 == 0x7FFFFFFF && t.psw.c && t.pc == 0x1002) = true := by decide +kernel

theorem test_addv : runs 16 0x0182 (.addv 1 2) (holding start [(1, 0x7FFFFFFF), (2, 0x1)])
    (fun t => t.reg 1 == 0x80000000 && t.psw.c && t.pc == 0x1002) = true := by decide +kernel

theorem test_subx : runs 16 0x0112 (.subx 1 2) (holding { start with psw := Psw.ofWord 0x1 } [(1, 0x0), (2, 0x0)])
    (fun t => t.reg 1 == 0xFFFFFFFF && t.psw.c && t.pc == 0x1002) = true := by decide +kernel

theorem test_addx : runs 16 0x0192 (.addx 1 2)
    (holding { start with psw := Psw.ofWord 0x1 } [(1, 0xFFFFFFFF), (2, 0xFFFFFFFF)])
    (fun t => t.reg 1 == 0xFFFFFFFF && t.psw.c && t.pc == 0x1002) =
      true := by decide +kernel

theorem test_sub : runs 16 0x0122 (.sub 1 2) (holding { start with psw := Psw.ofWord 0x1 } [(1, 0x0), (2, 0x1)])
    (fun t => t.reg 1 == 0xFFFFFFFF && t.pc == 0x1002) = true := by decide +kernel

theorem test_add : runs 16 0x01A2 (.add 1 2) (holding { start with psw := Psw.ofWord 0x1 } [(1, 0x7FFFFFFF), (2, 0x1)])
    (fun t => t.reg 1 == 0x80000000 && t.pc == 0x1002) = true := by decide +kernel

theorem test_neg : runs 16 0x0132 (.neg 1 2) (holding start [(1, 0x0), (2, 0x1)])
    (fun t => t.reg 1 == 0xFFFFFFFF && t.pc == 0x1002) = true := by decide +kernel

theorem test_not : runs 16 0x01B2 (.not 1 2) (holding start [(1, 0x55), (2, 0xFFFF)])
    (fun t => t.reg 1 == 0xFFFF0000 && t.pc == 0x1002) = true := by decide +kernel

theorem test_cmp : runs 16 0x0142 (.cmp 1 2) (holding start [(1, 0xFFFFFFFF), (2, 0x1)])
    (fun t => t.psw.c && t.pc == 0x1002) = true := by decide +kernel

theorem test_and : runs 16 0x01C2 (.and 1 2) (holding { start with psw := Psw.ofWord 0x1 } [(1, 0xFF00FF00), (2, 0xFF00FF0)])
    (fun t => t.reg 1 == 0xF000F00 && t.pc == 0x1002) = true := by decide +kernel

theorem test_cmpu : runs 16 0x0152 (.cmpu 1 2) (holding start [(1, 0x1), (2, 0xFFFFFFFF)])
    (fun t => t.psw.c && t.pc == 0x1002) = true := by decide +kernel

theorem test_xor : runs 16 0x01D2 (.xor 1 2) (holding start [(1, 0xFFFF0000), (2, 0xFF00FF00)])
    (fun t => t.reg 1 == 0xFFFF00 && t.pc == 0x1002) = true := by decide +kernel

theorem test_or : runs 16 0x01E2 (.or 1 2) (holding start [(1, 0xF0F00000), (2, 0xF0F0)])
    (fun t => t.reg 1 == 0xF0F0F0F0 && t.pc == 0x1002) = true := by decide +kernel

theorem test_addi : runs 16 0x41F8 (.addi 1 0xF8) (holding start [(1, 0x1000)])
    (fun t => t.reg 1 == 0xFF8 && t.pc == 0x1002) = true := by decide +kernel

theorem test_cmpi : runs 32 0x8041FFFF (.cmpi 1 0xFFFF) (holding start [(1, 0xFFFFFFFE)])
    (fun t => t.psw.c && t.pc == 0x1004) = true := by decide +kernel

theorem test_cmpui : runs 32 0x8051FFFF (.cmpui 1 0xFFFF) (holding start [(1, 0xFFFFFFFE)])
    (fun t => t.psw.c && t.pc == 0x1004) = true := by decide +kernel

theorem test_addv3 : runs 32 0x81820001 (.addv3 1 2 1) (holding start [(2, 0x7FFFFFFF)])
    (fun t => t.reg 1 == 0x80000000 && t.psw.c && t.pc == 0x1004) = true := by decide +kernel

theorem test_add3 : runs 32 0x81A2FFFF (.add3 1 2 0xFFFF) (holding start [(2, 0x0)])
    (fun t => t.reg 1 == 0xFFFFFFFF && t.pc == 0x1004) = true := by decide +kernel

theorem test_and3 : runs 32 0x81C2FF00 (.and3 1 2 0xFF00) (holding start [(2, 0xFFFFFFFF)])
    (fun t => t.reg 1 == 0xFF00 && t.pc == 0x1004) = true := by decide +kernel

theorem test_xor3 : runs 32 0x81D2FFFF (.xor3 1 2 0xFFFF) (holding start [(2, 0x12345678)])
    (fun t => t.reg 1 == 0x1234A987 && t.pc == 0x1004) = true := by decide +kernel

theorem test_or3 : runs 32 0x81E28000 (.or3 1 2 0x8000) (holding start [(2, 0x12340000)])
    (fun t => t.reg 1 == 0x12348000 && t.pc == 0x1004) = true := by decide +kernel

/-! ### Multiply, divide, shift (43_muldiv_shift.md) -/

theorem test_srl : runs 16 0x1102 (.srl 1 2) (holding start [(1, 0x80000000), (2, 0x4)])
    (fun t => t.reg 1 == 0x8000000 && t.pc == 0x1002) = true := by decide +kernel

theorem test_sra : runs 16 0x1122 (.sra 1 2) (holding start [(1, 0x80000000), (2, 0x4)])
    (fun t => t.reg 1 == 0xF8000000 && t.pc == 0x1002) = true := by decide +kernel

theorem test_sll : runs 16 0x1142 (.sll 1 2) (holding start [(1, 0x80000001), (2, 0x21)])
    (fun t => t.reg 1 == 0x2 && t.pc == 0x1002) = true := by decide +kernel

theorem test_srli : runs 16 0x5104 (.srli 1 4) (holding start [(1, 0x80000000)])
    (fun t => t.reg 1 == 0x8000000 && t.pc == 0x1002) = true := by decide +kernel

theorem test_srai : runs 16 0x5124 (.srai 1 4) (holding { start with psw := Psw.ofWord 0x1 } [(1, 0x80000000)])
    (fun t => t.reg 1 == 0xF8000000 && t.pc == 0x1002) = true := by decide +kernel

theorem test_slli : runs 16 0x5144 (.slli 1 4) (holding start [(1, 0xF0000001)])
    (fun t => t.reg 1 == 0x10 && t.pc == 0x1002) = true := by decide +kernel

theorem test_div : runs 32 0x91020000 (.div 1 2) (holding start [(1, 0xFFFFFFF9), (2, 0x2)])
    (fun t => t.reg 1 == 0xFFFFFFFD && t.pc == 0x1004) = true := by decide +kernel

theorem test_divu : runs 32 0x91120000 (.divu 1 2) (holding start [(1, 0xFFFFFFF9), (2, 0x2)])
    (fun t => t.reg 1 == 0x7FFFFFFC && t.pc == 0x1004) = true := by decide +kernel

theorem test_rem : runs 32 0x91220000 (.rem 1 2) (holding start [(1, 0xFFFFFFF9), (2, 0x2)])
    (fun t => t.reg 1 == 0xFFFFFFFF && t.pc == 0x1004) = true := by decide +kernel

theorem test_remu : runs 32 0x91320000 (.remu 1 2) (holding start [(1, 0xFFFFFFF9), (2, 0x10)])
    (fun t => t.reg 1 == 0x9 && t.pc == 0x1004) = true := by decide +kernel

theorem test_srl3 : runs 32 0x91820004 (.srl3 1 2 4) (holding start [(2, 0xFFFFFF00)])
    (fun t => t.reg 1 == 0xFFFFFF0 && t.pc == 0x1004) = true := by decide +kernel

theorem test_sra3 : runs 32 0x91A20004 (.sra3 1 2 4) (holding start [(2, 0xFFFFFF00)])
    (fun t => t.reg 1 == 0xFFFFFFF0 && t.pc == 0x1004) = true := by decide +kernel

theorem test_sll3 : runs 32 0x91C20004 (.sll3 1 2 4) (holding start [(2, 0x12345678)])
    (fun t => t.reg 1 == 0x23456780 && t.pc == 0x1004) = true := by decide +kernel

theorem test_mul : runs 16 0x1162 (.mul 1 2) (holding start [(1, 0xFFFFFFFF), (2, 0x5)])
    (fun t => t.reg 1 == 0xFFFFFFFB && t.pc == 0x1002) = true := by decide +kernel

/-! ### Branch and NOP (44_branch.md) -/

theorem test_jl : runs 16 0x1EC1 (.jl 1) (holding { start with pc := 0x2 } [(1, 0x10)])
    (fun t => t.reg 14 == 0x4 && t.pc == 0x10) = true := by decide +kernel

theorem test_jmp : runs 16 0x1FC1 (.jmp 1) (holding start [(1, 0xFFFFFFFF)])
    (fun t => t.pc == 0xFFFFFFFC) = true := by decide +kernel

theorem test_nop : runs 16 0x7000 .nop { start with psw := Psw.ofWord 0xC1C1 }
    (fun t => t.pc == 0x1002) = true := by decide +kernel

theorem test_bc8 : runs 16 0x7C04 (.bc8 4) { start with pc := 0x1002, psw := Psw.ofWord 0x1 }
    (fun t => t.pc == 0x1010) = true := by decide +kernel

theorem test_bnc8 : runs 16 0x7DFE (.bnc8 0xFE) start
    (fun t => t.pc == 0xFF8) = true := by decide +kernel

theorem test_bl8 : runs 16 0x7E04 (.bl8 4) { start with pc := 0x0 }
    (fun t => t.reg 14 == 0x4 && t.pc == 0x10) = true := by decide +kernel

theorem test_bra8 : runs 16 0x7F04 (.bra8 4) { start with pc := 0x0 }
    (fun t => t.pc == 0x10) = true := by decide +kernel

theorem test_beq : runs 32 0xB1020010 (.beq 1 2 0x10) (holding start [(1, 0x5), (2, 0x5)])
    (fun t => t.pc == 0x1040) = true := by decide +kernel

theorem test_bne : runs 32 0xB112FFFF (.bne 1 2 0xFFFF) (holding start [(1, 0x5), (2, 0x6)])
    (fun t => t.pc == 0xFFC) = true := by decide +kernel

theorem test_beqz : runs 32 0xB0810004 (.beqz 1 4) (holding start [(1, 0x0)])
    (fun t => t.pc == 0x1010) = true := by decide +kernel

theorem test_bnez : runs 32 0xB0910004 (.bnez 1 4) (holding start [(1, 0x5)])
    (fun t => t.pc == 0x1010) = true := by decide +kernel

theorem test_bltz : runs 32 0xB0A10004 (.bltz 1 4) (holding start [(1, 0x80000000)])
    (fun t => t.pc == 0x1010) = true := by decide +kernel

theorem test_bgez : runs 32 0xB0B10004 (.bgez 1 4) (holding start [(1, 0x0)])
    (fun t => t.pc == 0x1010) = true := by decide +kernel

theorem test_blez : runs 32 0xB0C10004 (.blez 1 4) (holding start [(1, 0x0)])
    (fun t => t.pc == 0x1010) = true := by decide +kernel

theorem test_bgtz : runs 32 0xB0D10004 (.bgtz 1 4) (holding start [(1, 0x1)])
    (fun t => t.pc == 0x1010) = true := by decide +kernel

theorem test_bc24 : runs 32 0xFCFFFFFF (.bc24 0xFFFFFF) { start with pc := 0x2000, psw := Psw.ofWord 0x1 }
    (fun t => t.pc == 0x1FFC) = true := by decide +kernel

theorem test_bnc24 : runs 32 0xFD000100 (.bnc24 0x100) start
    (fun t => t.pc == 0x1400) = true := by decide +kernel

theorem test_bl24 : runs 32 0xFE000040 (.bl24 0x40) start
    (fun t => t.reg 14 == 0x1004 && t.pc == 0x1100) = true := by decide +kernel

theorem test_bra24 : runs 32 0xFF800000 (.bra24 0x800000) { start with pc := 0x2000000 }
    (fun t => t.pc == 0x0) = true := by decide +kernel

theorem test_nop_par : runs 16 0xF000 .nopPar { start with pc := 0x1002 }
    (fun t => t.pc == 0x1004) = true := by decide +kernel

/-! ### EIT (45_eit_instructions.md) -/

theorem test_trap : runs 16 0x10F2 (.trap 2) { start with pc := 0x1002, psw := Psw.ofWord 0xC1 }
    (fun t => t.psw.image == 0xC180 && t.bpc == 0x1006 && t.pc == 0x48) = true := by decide +kernel

theorem test_rte : runs 16 0x10D6 .rte { start with psw := Psw.ofWord 0xC100, bpc := 0x1006 }
    (fun t => t.psw.sm && t.psw.ie && t.psw.c && t.pc == 0x1004) = true := by decide +kernel

/-! ### DSP (46_dsp.md) -/

theorem test_mulhi : runs 16 0x3102 (.mulhi 1 2)
    (holding { start with acc := 0xFFFFFFFFFFFFFF } [(1, 0x12345678), (2, 0x20000)])
    (fun t => t.acc == 0x24680000 && t.pc == 0x1002) =
      true := by decide +kernel

theorem test_machi : runs 16 0x3142 (.machi 1 2) (holding { start with acc := 0x10000 } [(1, 0x20000), (2, 0x30000)])
    (fun t => t.acc == 0x70000 && t.pc == 0x1002) = true := by decide +kernel

theorem test_mullo : runs 16 0x3112 (.mullo 1 2) (holding { start with acc := 0x0 } [(1, 0x12345678), (2, 0x2)])
    (fun t => t.acc == 0xACF00000 && t.pc == 0x1002) = true := by decide +kernel

theorem test_maclo : runs 16 0x3152 (.maclo 1 2) (holding { start with acc := 0xFFFFFFFFFFFFFF } [(1, 0x1), (2, 0x1)])
    (fun t => t.acc == 0xFFFF && t.pc == 0x1002) = true := by decide +kernel

theorem test_mulwhi : runs 16 0x3122 (.mulwhi 1 2) (holding { start with acc := 0x0 } [(1, 0x12345678), (2, 0x20000)])
    (fun t => t.acc == 0x2468ACF0 && t.pc == 0x1002) = true := by decide +kernel

theorem test_macwhi : runs 16 0x3162 (.macwhi 1 2) (holding { start with acc := 0x100 } [(1, 0x10), (2, 0x100000)])
    (fun t => t.acc == 0x200 && t.pc == 0x1002) = true := by decide +kernel

theorem test_mulwlo : runs 16 0x3132 (.mulwlo 1 2) (holding { start with acc := 0x0 } [(1, 0x12345678), (2, 0x2)])
    (fun t => t.acc == 0x2468ACF0 && t.pc == 0x1002) = true := by decide +kernel

theorem test_macwlo : runs 16 0x3172 (.macwlo 1 2) (holding { start with acc := 0x5 } [(1, 0xFFFFFFFF), (2, 0x3)])
    (fun t => t.acc == 0x2 && t.pc == 0x1002) = true := by decide +kernel

theorem test_mvtachi : runs 16 0x5170 (.mvtachi 1) (holding { start with acc := 0xDEADBEEF } [(1, 0x12FFFFFF)])
    (fun t => t.acc == 0xFFFFFFDEADBEEF && t.pc == 0x1002) = true := by decide +kernel

theorem test_mvtaclo : runs 16 0x5171 (.mvtaclo 1) (holding { start with acc := 0x12345600000000 } [(1, 0xDEADBEEF)])
    (fun t => t.acc == 0x123456DEADBEEF && t.pc == 0x1002) = true := by decide +kernel

theorem test_mvfachi : runs 16 0x51F0 (.mvfachi 1) { start with acc := 0x80000000000000 }
    (fun t => t.reg 1 == 0xFF800000 && t.pc == 0x1002) = true := by decide +kernel

theorem test_rach : runs 16 0x5080 .rach { start with acc := 0x40000000 }
    (fun t => t.acc == 0x100000000 && t.pc == 0x1002) = true := by decide +kernel

theorem test_mvfaclo : runs 16 0x51F1 (.mvfaclo 1) { start with acc := 0x123456789ABCDE }
    (fun t => t.reg 1 == 0x789ABCDE && t.pc == 0x1002) = true := by decide +kernel

theorem test_rac : runs 16 0x5090 .rac { start with acc := 0x12345678 }
    (fun t => t.acc == 0x24690000 && t.pc == 0x1002) = true := by decide +kernel

theorem test_mvfacmi : runs 16 0x51F2 (.mvfacmi 1) { start with acc := 0x123456789ABCDE }
    (fun t => t.reg 1 == 0x3456789A && t.pc == 0x1002) = true := by decide +kernel

/-! ### Floating-point arithmetic (47_float_arith.md) -/

theorem test_fadd : runs 32 0xD1020000 (.fadd 0 1 2) (holding start [(1, 0x3F800000), (2, 0x33800000)])
    (fun t => t.reg 0 == 0x3F800000 && t.fpsr.image == 0x40000140 && t.pc == 0x1004) = true := by decide +kernel

theorem test_fsub : runs 32 0xD1020040 (.fsub 0 1 2) (holding start [(1, 0x3F800000), (2, 0x33000000)])
    (fun t => t.reg 0 == 0x3F800000 && t.fpsr.image == 0x40000140 && t.pc == 0x1004) = true := by decide +kernel

theorem test_fmul : runs 32 0xD1021000 (.fmul 0 1 2) (holding start [(1, 0x3F800001), (2, 0x3F800001)])
    (fun t => t.reg 0 == 0x3F800002 && t.fpsr.image == 0x40000140 && t.pc == 0x1004) = true := by decide +kernel

theorem test_fdiv : runs 32 0xD1022000 (.fdiv 0 1 2) (holding start [(1, 0x3F800000), (2, 0x40400000)])
    (fun t => t.reg 0 == 0x3EAAAAAB && t.fpsr.image == 0x40000140 && t.pc == 0x1004) = true := by decide +kernel

theorem test_fmadd : runs 32 0xD1023000 (.fmadd 0 1 2)
    (holding { start with fpsr := Fpsr.reset.write 0x102 } [(0, 0x0), (1, 0x3F800001), (2, 0x3F800001)])
    (fun t => t.reg 0 == 0x3F800002 && t.fpsr.image == 0x40000142 && t.pc == 0x1004) =
      true := by decide +kernel

theorem test_fmsub : runs 32 0xD1023040 (.fmsub 0 1 2)
    (holding { start with fpsr := Fpsr.reset.write 0x102 } [(0, 0x3F800000), (1, 0x7F7FFFFF), (2, 0x40000000)])
    (fun t => t.reg 0 == 0xFF800000 && t.fpsr.image == 0xC800014A && t.pc == 0x1004) =
      true := by decide +kernel

theorem test_fdiv_enabled : runs 32 0xD1022000 (.fdiv 0 1 2)
    (holding { start with fpsr := Fpsr.reset.write 0x1100 } [(0, 0xAAAAAAAA), (1, 0x3F800000), (2, 0)])
    (fun t => t.reg 0 == 0xAAAAAAAA && t.bpc == 0x1004 && t.fpsr.image == 0x1110 && t.pc == 0x90) =
      true := by decide +kernel

/-! ### Conversion and compare (48_float_convert_compare.md) -/

theorem test_fcmp : runs 32 0xD10200C0 (.fcmp 0 1 2) (holding start [(0, 0x55555555), (1, 0x3F800000), (2, 0x3F800000)])
    (fun t => t.reg 0 == 0x0 && t.fpsr.image == 0x100 && t.pc == 0x1004) = true := by decide +kernel

theorem test_fcmpe : runs 32 0xD10200D0 (.fcmpe 0 1 2) (holding start [(0, 0x55555555), (1, 0x3F800000), (2, 0x3F800000)])
    (fun t => t.reg 0 == 0x0 && t.fpsr.image == 0x100 && t.pc == 0x1004) = true := by decide +kernel

theorem test_itof : runs 32 0xD1004000 (.itof 0 1) (holding start [(0, 0x55555555), (1, 0x1)])
    (fun t => t.reg 0 == 0x3F800000 && t.fpsr.image == 0x100 && t.pc == 0x1004) = true := by decide +kernel

theorem test_utof : runs 32 0xD1004040 (.utof 0 1) (holding start [(0, 0x55555555), (1, 0xFFFFFFFF)])
    (fun t => t.reg 0 == 0x4F800000 && t.fpsr.image == 0x40000140 && t.pc == 0x1004) = true := by decide +kernel

theorem test_ftoi : runs 32 0xD1004080 (.ftoi 0 1) (holding start [(0, 0x55555555), (1, 0x3FC00000)])
    (fun t => t.reg 0 == 0x1 && t.fpsr.image == 0x40000140 && t.pc == 0x1004) = true := by decide +kernel

theorem test_ftos : runs 32 0xD10040C0 (.ftos 0 1) (holding start [(0, 0x55555555), (1, 0x46FFFF00)])
    (fun t => t.reg 0 == 0x7FFF && t.fpsr.image == 0x40000140 && t.pc == 0x1004) = true := by decide +kernel

/-! ### Bit operation (49_bit_operation.md) -/

theorem test_btst : runs 16 0x07F1 (.btst 7 1) (holding start [(1, 0x101)])
    (fun t => t.psw.c && t.pc == 0x1002) = true := by decide +kernel

theorem test_setpsw : runs 16 0x7140 (.setpsw 0x40) start
    (fun t => t.psw.image == 0x40 && t.pc == 0x1002) = true := by decide +kernel

theorem test_clrpsw : runs 16 0x7240 (.clrpsw 0x40) { start with psw := Psw.ofWord 0xC0C1 }
    (fun t => t.psw.image == 0xC081 && t.pc == 0x1002) = true := by decide +kernel

theorem test_bset : runs 32 0xA3620004 (.bset 3 4 2) (holding { start with mem := [(0x2004, 0x1)] } [(2, 0x2000)])
    (fun t => t.pc == 0x1004 && byteAt t 0x2004 == 0x11) = true := by decide +kernel

theorem test_bclr : runs 32 0xA075FFFF (.bclr 0 0xFFFF 5) (holding { start with mem := [(0x2000, 0xFF)] } [(5, 0x2001)])
    (fun t => t.pc == 0x1004 && byteAt t 0x2000 == 0x7F) = true := by decide +kernel

/-! ### Hypotheses that some state and operands meet, statement by statement -/

/-- What `answers` accepts is a next state. -/
theorem next_of_answers {i : Instr} {s : State} {check : State → Bool} (h : answers i s check = true) :
    ∃ t : State, exec i s = .next t ∧ check t = true := by
  unfold answers at h
  split at h
  · exact ⟨_, by assumption, h⟩
  · cases h

theorem test_witness_DecodingAnEncodedInstructionGivesIt :
    (Instr.mvfc 15 7).wellFormed = true ∧ encode (.mvfc 15 7) = .half 0x1F97 ∧ Instr.mvfc 15 7 ≠ .nopPar ∧
    Instr.nopPar.wellFormed = true ∧ encode .nopPar = .half 0xF000 ∧
    (Instr.ld24 15 0xFFFFFF).wellFormed = true ∧ encode (.ld24 15 0xFFFFFF) = .word 0xEFFF 0xFFFF := by decide +kernel

theorem test_witness_AcceptedBitsAreTheEncoding :
    decodeHigh 0x0000 0 = .instr (.subv 0 0) ∧ decodeHigh 0xFFFF 0xFFFF = .instr (.bra24 0xFFFFFF) ∧
    decodeLow 0x7FFF = .instr (.bra8 0xFF) ∧ decodeLow 0xF000 = .instr .nopPar := by decide +kernel

/-- The first and the third field of an instruction's first halfword. -/
def leadFields (c : Code) : BitVec 4 × BitVec 4 :=
  match c with
  | .half h => (op1 h, op2 h)
  | .word h _ => (op1 h, op2 h)

/-- No instruction has the major opcode 1100, none 0011 with a third field from 1000 on. -/
theorem leadFields_encode (i : Instr) : (leadFields (encode i)).1 ≠ 0xC ∧ leadFields (encode i) ≠ (0x3, 0x8) := by
  cases i <;> simp [encode, leadFields, rri32, i24, fp32]

/-- 0x3080 as an instruction A, the major opcode 1100, 0x8000 as an instruction B; and what is no encoding. -/
theorem test_witness_RefusedEncodingsAreNamed :
    (let s : State := { State.reset with mem := [(0, 0x30), (1, 0x80)] };
      s.resetReq = false ∧ s.interruptAccepted = false ∧ s.pc.getLsbD 0 = false ∧ s.fetchBacked = true ∧
        s.decodeAt = .rejected .unassigned16) ∧
    (let s : State := { State.reset with mem := [(0, 0xC0)] };
      s.resetReq = false ∧ s.interruptAccepted = false ∧ s.pc.getLsbD 0 = false ∧ s.fetchBacked = true ∧
        s.decodeAt = .rejected .unassigned32 ∧ aligned4 s.pc = true ∧ (s.fetch16 s.pc).extractLsb' 12 4 = 0xC) ∧
    (let s : State := { State.reset with pc := 2, mem := [(2, 0x80)] };
      s.resetReq = false ∧ s.interruptAccepted = false ∧ s.pc.getLsbD 0 = false ∧ s.fetchBacked = true ∧
        s.decodeAt = .rejected .parallelNotNop ∧ s.pc.extractLsb' 0 2 = 2 ∧ (s.fetch16 s.pc).msb = true ∧
        s.fetch16 s.pc ≠ 0xF000) ∧
    CReg.named 4 = false ∧ CReg.named 5 = false ∧ CReg.named 8 = false ∧ CReg.named 15 = false := by decide +kernel

theorem test_witness_RefusedEncodingsAreNamed_encodings :
    ((∀ i : Instr, encode i = .half 0xC000 → i = .nopPar) ∧ ∀ i : Instr, encode i ≠ .word 0xC000 0xFFFF) ∧
    ((∀ i : Instr, encode i = .half 0x3080 → i = .nopPar) ∧ ∀ i : Instr, encode i ≠ .word 0x3080 0) ∧
    (∀ i : Instr, encode i ≠ .half 0xC000) ∧ ∀ i : Instr, encode i ≠ .half 0x3080 :=
  have hc : ∀ (i : Instr) (c : Code), encode i = c → (leadFields c).1 ≠ 0xC := fun i _ h => h ▸ (leadFields_encode i).1
  have h3 : ∀ (i : Instr) (c : Code), encode i = c → leadFields c ≠ (0x3, 0x8) := fun i _ h => h ▸ (leadFields_encode i).2
  ⟨⟨fun i h => absurd rfl (hc i _ h), fun i h => hc i _ h rfl⟩, ⟨fun i h => absurd rfl (h3 i _ h), fun i h => h3 i _ h rfl⟩,
    fun i h => hc i _ h rfl, fun i h => h3 i _ h rfl⟩

theorem test_witness_StepRunsTheDecodedInstruction :
    (let s := State.reset.withFetchWord 16 0x01A2;
      s.resetReq = false ∧ s.interruptAccepted = false ∧ s.pc.getLsbD 0 = false ∧ s.fetchBacked = true ∧
        s.decodeAt = .instr (.add 1 2) ∧ s.queue = [] ∧ s.ramAt s.pc (if s.pc.extractLsb' 0 2 = 0 then 4 else 2) = true) ∧
    (∃ t : State, exec (.add 1 2) (State.reset.withFetchWord 16 0x01A2) = .next t) ∧
    (let s := State.reset.withFetchWord 16 0x1194;
      s.resetReq = false ∧ s.interruptAccepted = false ∧ s.pc.getLsbD 0 = false ∧ s.fetchBacked = true ∧
        s.decodeAt = .instr (.mvfc 1 4)) ∧
    exec (.mvfc 1 4) (State.reset.withFetchWord 16 0x1194) = .refused (.noControlRegister 4) :=
  ⟨by decide +kernel, ⟨_, rfl⟩, by decide +kernel, rfl⟩

theorem test_witness_EveryStepKeepsTheInvariant :
    (Memory.wf start.mem = true ∧ start.pc.getLsbD 0 = false ∧ start.bpc.getLsbD 0 = false) ∧
    (match step start with | .next t => t.pc == 0x1002 | _ => false) = true := by decide +kernel

/-- Plain memory below 0x2000, device 7 from there to 0x2FFF, nothing above. -/
def withDevice : State :=
  { start with memMap := [⟨0, 0x2000, .ram⟩, ⟨0x2000, 0x1000, .device 7⟩] }

/-- No access; an access to plain memory; a misaligned access; one that the platform does not back, in part or as a whole; a
fetch from nowhere. -/
theorem test_witness_EveryInstructionHasANextState :
    ((Instr.mvtc 15 7).wellFormed = true ∧ dataAccess (.mvtc 15 7) start = none ∧ dataAccess (.unlock 1 2) start = none) ∧
    (dataAccess (.ld 1 2) start = some (0, 4, [none]) ∧ start.backed 0 4 = true) ∧
    (dataAccess (.ld 1 2) (holding withDevice [(2, 0x3001)]) = some (0x3001, 4, [none]) ∧ (0x3001 : Word).toNat % 4 ≠ 0) ∧
    (dataAccess (.st 1 2) (holding withDevice [(2, 0x3000)]) = some (0x3000, 4, [some 0]) ∧ withDevice.backed 0x3000 4 = false ∧
      (0x3000 : Word).toNat % 4 = 0) ∧
    (let s : State := { withDevice with pc := 0x3000 };
      s.resetReq = false ∧ s.interruptAccepted = false ∧ s.pc.getLsbD 0 = false ∧ s.fetchBacked = false) := by decide +kernel

/-- A load and a store of a device: one access each; BSET: a read and then a write. -/
theorem test_device_accesses :
    answers (.ldh 1 2) (holding withDevice [(2, 0x2002)]) (fun t => t.devLog == [⟨0x2002, 2, none⟩]) = true ∧
    answers (.sthInc 1 2) (holding withDevice [(1, 0x12345678), (2, 0x2002)])
      (fun t => t.devLog == [⟨0x2002, 2, some 0x5678⟩] && t.mem == [] && t.reg 2 == 0x2004) = true ∧
    answers (.bset 0 0 2) (holding withDevice [(2, 0x2FFF)])
      (fun t => t.devLog.length == 2 && t.devLog[1]? == some ⟨0x2FFF, 1, none⟩) = true := by decide +kernel

/-- The step or the instruction is refused at that address, for want of anything that answers there. -/
def refusedAt (o : Host.Outcome State Fault Refusal) (a : Word) : Bool :=
  match o with
  | .refused (.unbackedAddress b) => a == b
  | _ => false

/-- What the platform does not back is refused: a data access, and a fetch. -/
theorem test_unbacked :
    refusedAt (exec (.st 1 2) (holding withDevice [(2, 0xFFFFFFFC)])) 0xFFFFFFFC = true ∧
    refusedAt (step { withDevice with pc := 0x3000 }) 0x3000 = true := by decide +kernel

/-- A device at both ends of its range, of the widths 1 and 4; the plain loads' hypotheses there. -/
theorem test_witness_DevicesSeeEachDataAccessOnce :
    (let s := holding withDevice [(2, 0x2FFF)];
      Memory.wf s.mem = true ∧ dataAccess (.ldb 1 2) s = some (0x2FFF, 1, [none]) ∧ (0x2FFF : Word).toNat % 1 = 0 ∧
        s.backed 0x2FFF 1 = true ∧ s.backing (0x2FFF + BitVec.ofNat 32 0) = .device 7) ∧
    (let s := holding withDevice [(2, 0x2000)];
      dataAccess (.st 1 2) s = some (0x2000, 4, [some 0]) ∧ (0x2000 : Word).toNat % 4 = 0 ∧ s.backed 0x2000 4 = true ∧
        s.backed 0x2000 2 = true ∧ s.backing (0x2000 + BitVec.ofNat 32 3) = .device 7) := by decide +kernel

/-- The base of the device's stores, at its lowest address, with the LOCK bit set. -/
def atDevice : State := holding { withDevice with lock := true } [(2, 0x2000)]

/-- The instruction's data access is of that address, that width and those values. -/
def accesses (i : Instr) (s : State) (a : Word) (n : Nat) (vs : List (Option Word)) : Bool := dataAccess i s == some (a, n, vs)

/-- The stores that update a base, UNLOCK and BSET there. -/
theorem test_witness_DevicesSeeEachDataAccessOnce_stores :
    (accesses (.stPreInc 2 2) atDevice 0x2004 4 [some 0x2004] && atDevice.backed 0x2004 4 &&
      accesses (.stPreDec 2 2) atDevice 0x1FFC 4 [some 0x1FFC] && atDevice.ramAt 0x1FFC 4 &&
      accesses (.sthInc 1 2) atDevice 0x2000 2 [some 0] && accesses (.unlock 1 2) atDevice 0x2000 4 [some 0] &&
      (dataAccess (.bset 7 0 2) atDevice).isSome) = true := by decide +kernel

/-- The last two bytes of plain memory and the first two of device 7, in one word. -/
def withEdge : State :=
  { start with memMap := [⟨0, 0x2002, .ram⟩, ⟨0x2002, 0x1000, .device 7⟩] }

/-- An access that lies in part in plain memory and in part in a device. -/
theorem test_witness_DevicesSeeEachDataAccessOnce_edge :
    (let s := holding withEdge [(2, 0x2000)];
      Memory.wf s.mem = true ∧ dataAccess (.st 1 2) s = some (0x2000, 4, [some 0]) ∧
        dataAccess (.ldInc 1 2) s = some (0x2000, 4, [none]) ∧ (0x2000 : Word).toNat % 4 = 0 ∧ s.backed 0x2000 4 = true ∧
        s.backing (0x2000 + BitVec.ofNat 32 1) = .ram ∧ s.backing (0x2000 + BitVec.ofNat 32 2) = .device 7) ∧
    answers (.st 1 2) (holding withEdge [(1, 0x12345678), (2, 0x2000)])
      (fun t => t.devLog == [⟨0x2000, 4, some 0x12345678⟩] && t.mem == [(0x2000, 0x12), (0x2001, 0x34)]) = true := by
  decide +kernel

theorem test_witness_TheNextPcIsSequentialOrWordAligned :
    (∃ t : State, exec .nop start = .next t) ∧ (∃ t : State, exec (.seth 1 0) start = .next t) ∧
    (∃ t : State, exec (.jmp 1) start = .next t) := ⟨⟨_, rfl⟩, ⟨_, rfl⟩, ⟨_, rfl⟩⟩

theorem test_witness_OnlyLockingInstructionsChangeTheLockBit :
    (∃ t : State, exec (.lock 1 2) start = .next t ∧ (t.lock != start.lock) = true) ∧
    (∃ t : State, exec (.unlock 1 2) { start with lock := true } = .next t ∧ (t.lock != true) = true) ∧
    (∃ t : State, exec (.bset 7 0 2) { start with lock := true } = .next t ∧ (t.lock != true) = true) ∧
    (∃ t : State, exec (.bclr 0 0 2) { start with lock := true } = .next t ∧ (t.lock != true) = true) :=
  ⟨next_of_answers (by decide +kernel), next_of_answers (by decide +kernel), next_of_answers (by decide +kernel),
    next_of_answers (by decide +kernel)⟩

theorem test_witness_OnlyMulAndDspInstructionsChangeTheAccumulator :
    (∃ t : State, exec (.macwlo 1 1) (holding start [(1, 1)]) = .next t ∧ (t.acc != 0) = true) ∧
    (∃ t : State, exec .rach { start with acc := 1 } = .next t ∧ (t.acc != 1) = true) ∧
    (∃ t : State, exec (.mvtachi 1) (holding start [(1, 1)]) = .next t ∧ (t.acc != 0) = true) :=
  ⟨next_of_answers (by decide +kernel), next_of_answers (by decide +kernel), next_of_answers (by decide +kernel)⟩

theorem test_witness_OnlyStoringInstructionsChangeMemory :
    (∃ t : State, exec (.unlock 1 2) (holding { start with lock := true } [(1, 1)]) = .next t ∧ (t.mem != []) = true) ∧
    (∃ t : State, exec (.stbDisp 1 0x8000 2) (holding start [(1, 1)]) = .next t ∧ (t.mem != []) = true) ∧
    (∃ t : State, exec (.bset 0 0 2) start = .next t ∧ (t.mem != []) = true) :=
  ⟨next_of_answers (by decide +kernel), next_of_answers (by decide +kernel), next_of_answers (by decide +kernel)⟩

theorem test_witness_OnlyListedInstructionsChangeTheConditionBitOrSm :
    (∃ t : State, exec (.ld 1 2) (holding { start with psw := Psw.ofWord 0xC1 } [(2, 3)]) = .next t ∧
      (!t.psw.c && t.psw.bc && t.pc == 0x30) = true) ∧
    (∃ t : State, exec (.addx 1 1) (holding start [(1, 0x80000000)]) = .next t ∧ t.psw.c = true) :=
  ⟨next_of_answers (by decide +kernel), next_of_answers (check := fun t => t.psw.c) (by decide +kernel)⟩

theorem test_witness_R15IsTheStackPointerThatSmSelects :
    start.psw.sm = false ∧ ({ start with psw := Psw.ofWord 0x80 } : State).psw.sm = true ∧
    (14 : Reg) ≠ 15 ∧ (0 : Reg) ≠ 15 := by decide +kernel

/-- Each clause: a zero divisor; the largest and the smallest divisor; the overflowing case and the cases beside it. -/
theorem test_witness_MulAndDivisionsWriteTheirResult :
    (holding start [(1, 7)]).reg 2 = 0 ∧
    (let s := holding start [(1, 0x80000000), (2, 0xFFFFFFFF)]; s.reg 2 ≠ 0 ∧ s.reg 1 = 0x80000000 ∧ s.reg 2 = 0xFFFFFFFF) ∧
    (let s := holding start [(1, 0x80000001), (2, 0xFFFFFFFF)];
      s.reg 2 ≠ 0 ∧ ¬ (s.reg 1 = 0x80000000 ∧ s.reg 2 = 0xFFFFFFFF)) ∧
    (let s := holding start [(1, 0x80000000), (2, 1)];
      s.reg 2 ≠ 0 ∧ ¬ (s.reg 1 = 0x80000000 ∧ s.reg 2 = 0xFFFFFFFF)) := by decide +kernel

/-- Every access from `start` is to plain memory, whatever the registers hold. -/
theorem test_witness_plain_memory (regs : List (Reg × Word)) (a : Word) (n : Nat) : (holding start regs).ramAt a n = true := by
  have h : ∀ s : State, s.memMap = MemMap.allRam → (holding s regs).memMap = MemMap.allRam := by
    induction regs with
    | nil => exact fun _ h => h
    | cons p rest ih => exact fun s h => ih (s.setReg p.1 p.2) (by simpa using h)
  exact ramAt_of_allRam (h start rfl) a n

/-- Both forms, at the ends of the address space: an aligned word, an aligned halfword, an odd address (the memory is plain by
test_witness_plain_memory). -/
theorem test_witness_LoadsReadBigEndianBytesOrRaiseAe :
    (let s := holding start [(2, 0xFFFFFFFC)]; (s.reg 2).getLsbD 0 = false ∧ (s.reg 2).toNat % 4 = 0) ∧
    (let s := holding start [(2, 0xFFFFFFFE)]; (s.reg 2).getLsbD 0 = false ∧ (s.reg 2).toNat % 4 ≠ 0) ∧
    (let s := holding start [(2, 0xFFFFFFFF)]; (s.reg 2).getLsbD 0 = true ∧ (s.reg 2).toNat % 4 ≠ 0) ∧
    (let a := (holding start [(2, 0xFFFFFFFF)]).reg 2 + (1 : BitVec 16).signExtend 32;
      a.getLsbD 0 = false ∧ a.toNat % 4 = 0) ∧
    (let a := (holding start [(2, 0)]).reg 2 + (0x8001 : BitVec 16).signExtend 32;
      a.getLsbD 0 = true ∧ a.toNat % 4 ≠ 0) := by decide +kernel

theorem test_witness_StoresWriteBigEndianBytesOrRaiseAe :
    Memory.wf start.mem = true ∧
    (let s := holding start [(2, 0xFFFFFFFC)]; Memory.wf s.mem = true ∧ (s.reg 2).getLsbD 0 = false ∧ (s.reg 2).toNat % 4 = 0) ∧
    (let s := holding start [(2, 0xFFFFFFFE)]; Memory.wf s.mem = true ∧ (s.reg 2).getLsbD 0 = false ∧ (s.reg 2).toNat % 4 ≠ 0) ∧
    (let a := (holding start [(2, 1)]).reg 2 + (0x7FFF : BitVec 16).signExtend 32;
      a.getLsbD 0 = false ∧ a.toNat % 4 = 0) ∧
    (let a := (holding start [(2, 0)]).reg 2 + (0xFFFF : BitVec 16).signExtend 32;
      a.getLsbD 0 = true ∧ a.toNat % 4 ≠ 0) := by decide +kernel

/-- Every clause: an aligned base, a misaligned base, the two operands different and the same. -/
theorem test_witness_UpdatingFormsAccessAndUpdateTheirBase :
    (let s := holding start [(2, 0xFFFFFFFC)];
      Memory.wf s.mem = true ∧ (s.reg 2).toNat % 4 = 0 ∧ (s.reg 2 + 4).toNat % 4 = 0 ∧ (s.reg 2 - 4).toNat % 4 = 0 ∧
        (s.reg 2).getLsbD 0 = false ∧ (1 : Reg) ≠ 2) ∧
    (let s := holding start [(2, 0xFFFFFFFD)];
      Memory.wf s.mem = true ∧ (s.reg 2).toNat % 4 ≠ 0 ∧ (s.reg 2 + 4).toNat % 4 ≠ 0 ∧ (s.reg 2 - 4).toNat % 4 ≠ 0 ∧
        (s.reg 2).getLsbD 0 = true) ∧
    (if (2 : Reg) = 2 then (4 : Word) else 0) = 4 := by decide +kernel

theorem test_witness_LockLoadsAndUnlockStoresUnderTheLockBit :
    (let s := holding { start with lock := true } [(2, 0xFFFFFFFC)];
      Memory.wf s.mem = true ∧ (s.reg 2).toNat % 4 = 0 ∧ s.lock = true ∧ s.ramAt (s.reg 2) 4 = true) ∧
    (let s := holding start [(2, 0)]; Memory.wf s.mem = true ∧ (s.reg 2).toNat % 4 = 0 ∧ s.lock = false) ∧
    (let s := holding start [(2, 2)]; Memory.wf s.mem = true ∧ (s.reg 2).toNat % 4 ≠ 0) := by decide +kernel

/-- The targets of the largest displacements, for the three widths. -/
theorem test_witness_branch_targets :
    BitVec.ofInt 32 ((start.pc &&& 0xFFFFFFFC).toNat + 4 * (0x7F : BitVec 8).toInt) = 0x11FC#32 ∧
    BitVec.ofInt 32 ((start.pc &&& 0xFFFFFFFC).toNat + 4 * (0x80 : BitVec 8).toInt) = 0x0E00#32 ∧
    BitVec.ofInt 32 ((start.pc &&& 0xFFFFFFFC).toNat + 4 * (0x8000 : BitVec 16).toInt) = 0xFFFE1000#32 ∧
    BitVec.ofInt 32 ((start.pc &&& 0xFFFFFFFC).toNat + 4 * (0x7FFFFF : BitVec 24).toInt) = 0x02000FFC#32 := by decide +kernel

/-- TRAP and the entries: a program counter at the end of the address space. -/
theorem test_witness_TrapSavesAndEntersItsVector :
    ({ start with pc := 0xFFFFFFFE } : State).pc.getLsbD 0 = false := by decide

theorem test_witness_ExceptionEntrySavesAndEnters :
    ({ start with pc := 0xFFFFFFFC } : State).pc.getLsbD 0 = false ∧ EitEvent.fpe ≠ .ei ∧ EitEvent.trap 15 ≠ .ei := by decide

theorem test_witness_AnInterruptIsTakenAtAWordBoundaryOnly :
    (let s : State := { start with extInt := true, psw := Psw.ofWord 0x40 };
      s.resetReq = false ∧ s.extInt = true ∧ s.psw.ie = true ∧ s.pc.toNat % 4 = 0) ∧
    (let s : State := { start with extInt := true, psw := Psw.ofWord 0x40, pc := 0x1002 };
      s.resetReq = false ∧ ¬ (s.extInt = true ∧ s.psw.ie = true ∧ s.pc.toNat % 4 = 0) ∧ s.pc.getLsbD 0 = false ∧
        s.fetchBacked = true ∧ s.decodeAt = .instr (.subv 0 0) ∧ answers (.subv 0 0) s (fun _ => true) = true) ∧
    (let s : State := { start with extInt := true };
      ¬ (s.extInt = true ∧ s.psw.ie = true ∧ s.pc.toNat % 4 = 0) ∧ s.decodeAt = .instr (.subv 0 0)) := by decide +kernel

theorem test_witness_ResetGivesTheValuesTheSpecStates : ({ start with resetReq := true } : State).resetReq = true := rfl

/-- 0x80008000 is -32768 * 2^16 + 32768, its low halfword as a signed number -32768; 0xFFFF7FFF is -1 * 2^16 + 32767. -/
theorem test_witness_multiplications :
    (let s := holding start [(1, 0x80008000), (2, 0xFFFF7FFF)];
      (s.reg 1).toInt = -32768 * 2 ^ 16 + ((s.reg 1).extractLsb' 0 16).toNat ∧ ((s.reg 1).extractLsb' 0 16).toInt = -32768 ∧
      (s.reg 2).toInt = -1 * 2 ^ 16 + ((s.reg 2).extractLsb' 0 16).toNat ∧ ((s.reg 2).extractLsb' 0 16).toInt = 32767) := by
  decide +kernel

/-- RAC and RACH: just past the top, just below the bottom, and the two ends of the range between. -/
theorem test_witness_AccumulatorTransfersAndRoundings :
    (2 ^ 47 - 2 ^ 16 < (0x003FFFFFFFC000 : Acc).toInt * 2 + 2 ^ 15) ∧
    ((0xFFBFFFFFFFBFFF : Acc).toInt * 2 + 2 ^ 15 < -2 ^ 47) ∧
    ((0x003FFFFFFF4000 : Acc).toInt * 2 + 2 ^ 15 = 2 ^ 47 - 2 ^ 16) ∧
    ((0xFFBFFFFFFFC000 : Acc).toInt * 2 + 2 ^ 15 = -2 ^ 47) ∧
    (2 ^ 47 - 2 ^ 32 < (0x003FFFC0000000 : Acc).toInt * 2 + 2 ^ 31) ∧
    ((0x00000000000001 : Acc).toInt * 2 + 2 ^ 31 < 0 + 2 ^ 32 ∧ (2 ^ 32 : Int) ∣ 0) := by decide +kernel

theorem test_witness_BsetAndBclrChangeOneBitOfAByte :
    Memory.wf start.mem = true ∧ start.ramAt (start.reg 2 + (0xFFFF : BitVec 16).signExtend 32) 1 = true ∧
    (7 : Nat) < 8 ∧ 7 - (7 : BitVec 3).toNat = 0 ∧ 7 - (0 : BitVec 3).toNat = 7 := by decide +kernel

/-- The FPSR after reset masks every exception and has DN = 1. -/
theorem test_witness_MaskedFpuOperationsComplete :
    start.fpsr.dn = true ∧ start.fpsr.ex = false ∧ start.fpsr.eu = false ∧ start.fpsr.ez = false ∧ start.fpsr.eo = false ∧
    start.fpsr.ev = false ∧ Instr.fmsub 0 1 2 ∈ fpuOperations 0 1 2 ∧ Instr.ftos 0 1 ∈ fpuOperations 0 1 2 := by decide +kernel

/-- 1 / 0 with EZ = 1 enters FPE, with EZ = 0 it does not. -/
theorem test_witness_FpuOperationsEndInFpeOrWriteTheirResult :
    Instr.fdiv 0 1 2 ∈ fpuOperations 0 1 2 ∧
    (∃ t : State, exec (.fdiv 0 1 2) (holding { start with fpsr := Fpsr.reset.write 0x1100 } [(1, 0x3F800000)]) = .next t ∧
      (t.fpsr.cause.cz && t.fpsr.ez) = true) ∧
    (∃ t : State, exec (.fdiv 0 1 2) (holding start [(1, 0x3F800000)]) = .next t ∧
      (!t.fpsr.cause.ce && t.fpsr.cause.cz && !t.fpsr.ez) = true) :=
  ⟨by decide, next_of_answers (by decide +kernel), next_of_answers (by decide +kernel)⟩

/-- The smallest normalized magnitude, and one third in every rounding mode. -/
theorem test_witness_RoundedResultsBracketTheExactValue :
    (2 ^ 126 ≤ 1 * 2 ^ 126 ∧ (fpFinish Fpsr.reset .nearest true 1 (2 ^ 126)).causes.co = false) ∧
    (∀ rnd ∈ [RoundMode.nearest, .zero, .plusInf, .minusInf], (fpFinish Fpsr.reset rnd true 1 3).causes.co = false) := by
  decide +kernel

/-- 1 + 2^-24 and 1 + 3 * 2^-24 lie half a unit from two numbers each. -/
theorem test_witness_RoundedResultsBracketTheExactValue_ties :
    (let o := fpFinish Fpsr.reset .nearest false (2 ^ 24 + 1) (2 ^ 24);
      2 * ((2 ^ 24 + 1) * 2 ^ 149) = 2 * (fpMag o.value * 2 ^ 24) + 2 ^ 24 * 2 ^ (fpExp o.value - 1) ∧ o.value = 0x3F800000) ∧
    (let o := fpFinish Fpsr.reset .nearest false (2 ^ 24 + 3) (2 ^ 24);
      2 * (fpMag o.value * 2 ^ 24) = 2 * ((2 ^ 24 + 3) * 2 ^ 149) + 2 ^ 24 * 2 ^ (fpExp o.value - 1) ∧
        o.value = 0x3F800002) := by decide +kernel

/-- The first overflowing magnitude of every rounding, and the largest number, which does not overflow. -/
theorem test_witness_OverflowBeginsAboveTheLargestNumber :
    (fpFinish Fpsr.reset .nearest false (2 ^ 128 - 2 ^ 103) 1).causes.co = true ∧
    (fpFinish Fpsr.reset .plusInf false (2 ^ 128 - 2 ^ 104 + 1) 1).causes.co = true ∧
    (fpFinish Fpsr.reset .zero false (2 ^ 128) 1).causes.co = true ∧
    (fpFinish Fpsr.reset .minusInf true (2 ^ 128 - 2 ^ 104) 1).causes.co = false := by decide +kernel

/-- Normalized operands at both ends of the exponent's range, zeros of both signs, and nothing that triggers. -/
theorem test_witness_ArithmeticOnNumbersIsExactThenFinished :
    (fpExp 0x00800000 = 1 ∧ fpExp 0x7F7FFFFF = 254 ∧ isZero 0x80000000 = true ∧ isZero 0 = true) ∧
    (fpVal 0x3F800000 + fpVal 0x40000000 ≠ 0 ∧
      Fpsr.reset.triggers (fpFinish Fpsr.reset .nearest false (fpVal 0x40400000).natAbs (2 ^ 149)).causes = false) ∧
    (fpVal 0x3F800000 + fpVal 0xBF800000 = 0 ∧ isZero 0x3F800000 = false) ∧
    (fpVal 0 - fpVal 0x80000000 = 0 ∧ fpSign 0x80000000 = !fpSign 0) ∧
    Fpsr.reset.triggers (fpFinish Fpsr.reset .nearest false (fpMag 0x3F800000 * fpMag 0x3F800000) (2 ^ 298)).causes = false ∧
    Fpsr.reset.triggers (fpFinish Fpsr.reset .nearest false (fpMag 0x3F800000) (fpMag 0x40400000)).causes = false ∧
    (let f := Fpsr.reset.write 0x4100;
      f.triggers (fpFinish f .nearest false (fpMag 0x3F800000) (fpMag 0x40400000)).causes = true) ∧
    (let f := Fpsr.reset.write 0x900;
      f.triggers (fpFinish f .nearest false (fpMag 0x7F7FFFFF * fpMag 0x40000000) (2 ^ 298)).causes = true) := by
  decide +kernel

theorem test_witness_NanOperandsDeliverTheQnanOfTheTable :
    (start.fpsr.ev = false ∧ (Fpsr.reset.write 0x500).ev = true) ∧ isSnan 0x7F800001 = true ∧ isSnan 0xFFBFFFFF = true ∧
    isSnan 0x7FC00000 = false ∧
    isQnan 0x7FC00000 = true ∧ isQnan 0x7F800001 = false ∧ isNan 0x7F800000 = false ∧
    (∃ t : State, exec (.fmul 0 1 2) (holding start [(2, 0x7F800000)]) = .next t ∧ t.fpsr.cause.cv = true) :=
  ⟨by decide +kernel, by decide +kernel, by decide +kernel, by decide +kernel, by decide +kernel, by decide +kernel,
    by decide +kernel, next_of_answers (check := fun t => t.fpsr.cause.cv) (by decide +kernel)⟩

theorem test_witness_DivisionByZeroFollowsTheDividend :
    isZero 0x80000000 = true ∧ (isDenormal 0x007FFFFF = true ∧ start.fpsr.dn = true) ∧ start.fpsr.ez = false ∧
    (Fpsr.reset.write 0x1100).ez = true ∧ 1 ≤ fpExp 0x00800000 ∧ fpExp 0x7F7FFFFF ≤ 254 ∧ isInfinite 0xFF800000 = true ∧
    (start.fpsr.ev = false ∧ (Fpsr.reset.write 0x500).ev = true ∧ (Fpsr.reset.write 0x500).dn = true) := by decide +kernel

/-- The largest product below the smallest normalized number, a sum, a difference and a quotient there, and the three settings
of EU and DN. -/
theorem test_witness_UnderflowHasThreeOutcomes :
    (fpExp 0x00800000 = 1 ∧ 1 ≤ fpExp 0x3F7FFFFF ∧ fpExp 0x3F7FFFFF ≤ 254 ∧ fpMag 0x00800000 * fpMag 0x3F7FFFFF < 2 ^ 172) ∧
    (fpVal 0x00800001 + fpVal 0x80800000 = 1 ∧ fpVal 0x00800000 - fpVal 0x00FFFFFF = -(2 ^ 23 - 1) ∧
      fpMag 0x00800000 * 2 ^ 126 < fpMag 0x3F800001) ∧ 1 * 2 ^ 126 < 2 ^ 126 + 1 ∧
    (Fpsr.reset.write 0x2100).eu = true ∧ ((Fpsr.reset.write 0).eu = false ∧ (Fpsr.reset.write 0).dn = false) ∧
    (start.fpsr.eu = false ∧ start.fpsr.dn = true) := by decide +kernel

theorem test_witness_DenormalizedOperandsAreUnimplementedOrZero :
    ((Fpsr.reset.write 0).dn = false ∧ isNan 0x00000001 = false ∧ isDenormal 0x00000001 = true ∧ isNan 0x7F800000 = false) ∧
    (start.fpsr.dn = true ∧ isDenormal 0x807FFFFF = true ∧ (1 : Reg) ≠ 0 ∧
      answers (.fadd 0 1 2) (holding start [(1, 0x807FFFFF)]) (fun _ => true) = true) := by decide +kernel

theorem test_witness_FaddAndFmulCommuteAndFsubAddsTheNegation :
    ¬ (isNan 0x7FC00000 = true ∧ isNan 0x3F800000 = true) ∧ isNan 0x7F800000 = false ∧ (1 : Reg) ≠ 2 ∧ (0 : Reg) ≠ 2 ∧
    answers (.fsub 0 1 2) (holding start [(1, 0x3F800000), (2, 0x7F800000)]) (fun _ => true) = true := by decide +kernel

/-- Every case of the table: an infinity beside a number, beside a zero, beside an infinity of the same and of the other sign;
both settings of DN and of EV. -/
theorem test_witness_InfiniteOperandsFollowTheTables :
    (isNan 0x7F800000 = false ∧ isInfinite 0x7F800000 = true ∧ isInfinite 0xFF800000 = true ∧
      fpSign 0x7F800000 ≠ fpSign 0xFF800000) ∧
    (isNan 0x00800000 = false ∧ 1 ≤ fpExp 0x00800000 ∧ isInfinite 0x7F7FFFFF = false ∧ fpExp 0x80000000 = 0 ∧
      fpExp 0x007FFFFF = 0) ∧
    ((Fpsr.reset.write 0).dn = false ∧ isDenormal 0x7F800000 = false ∧ isDenormal 0x80000000 = false) ∧
    start.fpsr.ev = false ∧ (Fpsr.reset.write 0x500).ev = true := by decide +kernel

/-- 1.0 minus and plus (1 + 2^-23)^2, truncated, by way of R3, with RM toward plus infinity; the second step enters FPE where
R0 is denormalized and DN = 0. -/
theorem test_witness_FusedFormsAreMultiplyThenAddWhenTruncating :
    (let s := holding { start with fpsr := Fpsr.reset.write 0x102 } [(0, 0x3F800000), (1, 0x3F800001), (2, 0x3F800001)];
      (3 : Reg) ≠ 0 ∧ isQnan (s.reg 0) = false ∧
      answers (.fmul 3 1 2) { s with fpsr := { s.fpsr with rm := .zero } } (fun p =>
        !s.fpsr.triggers p.fpsr.cause && !p.fpsr.cause.co &&
        answers (.fadd 0 0 3) { p with fpsr := { p.fpsr with rm := s.fpsr.rm } } (fun t => !s.fpsr.triggers t.fpsr.cause) &&
        answers (.fsub 0 0 3) { p with fpsr := { p.fpsr with rm := s.fpsr.rm } }
          (fun t => !s.fpsr.triggers t.fpsr.cause)) = true) ∧
    (let s := holding { start with fpsr := Fpsr.reset.write 0 } [(0, 0x00000001), (1, 0x3F800000), (2, 0x3F800000)];
      answers (.fmul 3 1 2) { s with fpsr := { s.fpsr with rm := .zero } } (fun p =>
        !s.fpsr.triggers p.fpsr.cause && !p.fpsr.cause.co &&
        answers (.fadd 0 0 3) { p with fpsr := { p.fpsr with rm := s.fpsr.rm } }
          (fun t => s.fpsr.triggers t.fpsr.cause)) = true) := by decide +kernel

/-- The spec's example of step 1 (47_float_arith.md R350): with RM toward plus infinity the product is truncated, FMUL's is not. -/
theorem test_fmadd_truncates :
    let s := holding { start with fpsr := Fpsr.reset.write 0x102 } [(1, 0x3F800001), (2, 0x3F800001)];
    answers (.fmadd 0 1 2) s (fun t => t.reg 0 == 0x3F800002 && t.fpsr.cause.cx && t.fpsr.fx) = true ∧
    answers (.fmul 0 1 2) s (fun t => t.reg 0 == 0x3F800003) = true := by decide +kernel

/-- Step 1 enters FPE (0 times infinity, EV = 1) and does not; a QNaN, an SNaN, a number in Rdest; a NaN product. -/
theorem test_witness_FusedFormsCheckRdestAndChooseTheirNan :
    (let s := holding { start with fpsr := Fpsr.reset.write 0x500 } [(0, 0x7F800001), (2, 0x7F800000)];
      (3 : Reg) ≠ 0 ∧ isSnan (s.reg 0) = true ∧ s.fpsr.ev = true ∧
      answers (.fmul 3 1 2) { s with fpsr := { s.fpsr with rm := .zero } } (fun p => s.fpsr.triggers p.fpsr.cause) = true) ∧
    (let s := holding { start with fpsr := Fpsr.reset.write 0x500 } [(0, 0x7F800001)];
      isSnan (s.reg 0) = true ∧ s.fpsr.ev = true ∧
      answers (.fmul 3 1 2) { s with fpsr := { s.fpsr with rm := .zero } } (fun p => !s.fpsr.triggers p.fpsr.cause) = true) ∧
    (let s := holding start [(0, 0x7FC00000), (2, 0x7F800001)];
      isQnan (s.reg 0) = true ∧ s.fpsr.ev = false ∧ isNan 0x3F800000 = false ∧
      answers (.fmul 3 1 2) { s with fpsr := { s.fpsr with rm := .zero } }
        (fun p => !s.fpsr.triggers p.fpsr.cause && isNan (p.reg 3)) = true) := by decide +kernel

/-- The largest number times 2 overflows in step 1 without entering FPE. -/
def overflowsUnder (w : Word) : Bool :=
  let s := holding { start with fpsr := Fpsr.reset.write w } [(1, 0x7F7FFFFF), (2, 0x40000000)]
  answers (.fmul 3 1 2) { s with fpsr := { s.fpsr with rm := .zero } } (fun p => p.fpsr.cause.co && !s.fpsr.triggers p.fpsr.cause)

/-- Every RM, both settings of DN and of EV; every class of Rdest. -/
theorem test_witness_FusedFormsReplaceRdestAfterAnOverflow :
    (3 : Reg) ≠ 0 ∧ overflowsUnder 0x100 = true ∧ overflowsUnder 0x101 = true ∧ overflowsUnder 0x102 = true ∧
    overflowsUnder 0x103 = true ∧ overflowsUnder 0x000 = true ∧ overflowsUnder 0x500 = true ∧
    isZero 0x80000000 = true ∧ (1 ≤ fpExp 0x00800000 ∧ fpExp 0x7F7FFFFF ≤ 254) ∧ isDenormal 0x007FFFFF = true ∧
    isInfinite 0xFF800000 = true ∧ isInfinite 0x7F7FFFFF = false ∧ fpSign 0xFF800000 ≠ fpSign 0x7F800000 ∧
    (Fpsr.reset.write 0).dn = false ∧ (Fpsr.reset.write 0x500).ev = true := by decide +kernel

/-- 0; the largest integer that is exact and the first that is not; EX = 1. -/
theorem test_witness_IntegersConvertToRoundedNumbers :
    (0 : Word).toInt = 0 ∧ (fpFinish Fpsr.reset .nearest false 0x1000000 1).causes = FpCauses.none ∧
    (fpFinish Fpsr.reset .nearest false 0x1000001 1).causes = ixct ∧ (Fpsr.reset.write 0x4100).ex = true := by decide +kernel

/-- For FTOI: -2^31 fits, 2^31 does not; for FTOS 32767.5 is cut to 32767 and 32768 does not fit; a NaN, an infinity, a
denormalized number; both settings of EV, EX and DN. -/
theorem test_witness_NumbersConvertToTruncatedIntegers :
    (fpVal 0xCF000000 = -2 ^ 31 * 2 ^ 149) ∧ (fpVal 0x4F000000 = 2 ^ 31 * 2 ^ 149) ∧
    (32767 * 2 ^ 149 < fpVal 0x46FFFF00 ∧ fpVal 0x46FFFF00 < 32768 * 2 ^ 149) ∧ (fpVal 0x47000000 = 2 ^ 15 * 2 ^ 149) ∧
    isNan 0x7F800001 = true ∧ isInfinite 0xFF800000 = true ∧ isDenormal 0x80000001 = true ∧
    (0 * 2 ^ 149 ≤ fpVal 0x00000001 ∧ fpVal 0x00000001 < (0 + 1) * 2 ^ 149) ∧
    start.fpsr.ev = false ∧ (Fpsr.reset.write 0x500).ev = true ∧ (Fpsr.reset.write 0x4100).ex = true ∧
    (Fpsr.reset.write 0).dn = false := by decide +kernel

/-- The three relations: zeros of both signs, the infinities and the largest numbers. -/
theorem test_witness_ComparesDeliverTheirPattern :
    isNan (flush 0x807FFFFF) = false ∧ fpVal (flush 0x807FFFFF) = fpVal (flush 0) ∧ fpVal 0x7F7FFFFF < fpVal 0x7F800000 ∧
    fpVal 0xFF800000 < fpVal 0xFF7FFFFF ∧ isDenormal 0x7F800000 = false ∧ (Fpsr.reset.write 0).dn = false := by decide +kernel

theorem test_witness_ComparesOfANanAreInvalid :
    isSnan 0x7F800001 = true ∧ (isQnan 0x7FC00000 = true ∧ isSnan 0x7FC00000 = false ∧ isSnan 0 = false) ∧
    isNan 0xFFFFFFFF = true ∧ start.fpsr.ev = false ∧ (Fpsr.reset.write 0x500).ev = true := by decide +kernel

end Sys2Proof.Tests
end

section
/-! PROOFS. The state (10_state.md): the stack pointers, CBR and FS as views, the invariant of a run, the accumulator.

Every instruction is put together from few writes of the state. `Closed` says that a predicate survives each of them, the writes
of the accumulator, of the LOCK bit and of memory only where an instruction makes them (`partsWritten`). `Closed.yields_exec` walks
through the instructions once; the invariant and the frame of the accumulator are two of its uses. -/

namespace Sys2Proof.Machine

variable {s t : State} {P : State → Prop} {parts : List Part}

/-! ### Stack pointers -/

theorem reg_r15 (s : State) : s.reg 15 = if s.psw.sm then s.spu else s.spi := rfl

theorem setReg_r15 (s : State) (v : Word) :
    s.setReg 15 v = if s.psw.sm then { s with spu := v } else { s with spi := v } := rfl

theorem setReg_r15_gpr (s : State) (v : Word) : (s.setReg 15 v).gpr = s.gpr := by
  rw [setReg_r15]; split <;> rfl

/-- Settles O14: a read and a write of R15 go to the stack pointer that SM selects. -/
theorem r15IsTheStackPointerThatSmSelects : Obligations.R15IsTheStackPointerThatSmSelects := by
  intro s v
  refine ⟨fun hm => ⟨?_, ?_, ?_⟩, fun hm => ⟨?_, ?_, ?_⟩, setReg_r15_gpr s v, fun r hr => setReg_stackPointers s r v hr⟩
  · rw [reg_r15, hm]; rfl
  · rw [setReg_r15, hm]; rfl
  · exact setReg_spu_of_interruptMode s hm 15 v
  · rw [reg_r15, hm]; rfl
  · rw [setReg_r15, hm]; rfl
  · exact setReg_spi_of_userMode s hm 15 v

/-! ### CBR and FS -/

theorem bitAt_zero (b : Bool) : bitAt b 0 = (BitVec.ofBool b).zeroExtend 32 := by cases b <;> rfl

/-- A bit in its place is that bit there and 0 elsewhere. -/
theorem getLsbD_bitAt (b : Bool) {n : Nat} (hn : n < 32) (k : Nat) :
    (bitAt b n).getLsbD k = (b && decide (k = n)) := by
  cases b
  · simp [bitAt]
  · have h : 1#32 <<< n = BitVec.twoPow 32 n := by simp [BitVec.twoPow]
    simp only [bitAt, if_true, h, BitVec.getLsbD_twoPow, Bool.true_and, decide_eq_decide.mpr eq_comm, hn, decide_true]

/-- Value bit 31 of the FPSR's image is FS: no other bit has its place there. -/
theorem getLsbD_fpsrImage_31 (f : Fpsr) : f.image.getLsbD 31 = f.fs := by
  simp only [Fpsr.image, BitVec.getLsbD_or, getLsbD_bitAt, Nat.reduceLT]
  simp

/-- Inverting value bit 31 leaves every lower bit. -/
theorem getLsbD_xor_signBit (v : Word) {k : Nat} (hk : k < 31) : (v ^^^ 0x80000000).getLsbD k = v.getLsbD k := by
  have h : (0x80000000 : Word) = BitVec.twoPow 32 31 := rfl
  rw [BitVec.getLsbD_xor, h, BitVec.getLsbD_twoPow]
  simp [show 31 ≠ k by omega]

/-- The write of the FPSR does not look at value bit 31, where FS is read (10_state.md R36). -/
theorem fpsrWrite_xor_signBit (f : Fpsr) (v : Word) : f.write (v ^^^ 0x80000000) = f.write v := by
  simp only [Fpsr.write, FpCauses.keep, getLsbD_xor_signBit v, Nat.reduceLT]

/-- Settles O15: MVFC reads the image of C, MVTC finds nothing to write, and the FPSR's bit 31 is FS for reads only. -/
theorem cbrAndFsAreViewsOfOtherBits : Obligations.CbrAndFsAreViewsOfOtherBits := by
  refine ⟨fun s r => ?_, fun s r => rfl, rfl, fun f => ⟨?_, fpsrWrite_xor_signBit f⟩⟩
  · rw [← bitAt_zero]
    exact writesReg_of_writeBack [] rfl
  · rw [getLsbD_fpsrImage_31]
    simp [Fpsr.fs, or_assoc]

/-! ### Answers -/

/-- The answer is no fault, and a next state satisfies `P`. -/
def Yields (P : State → Prop) : Result → Prop
  | .next t => P t
  | .fault _ => False
  | .refused _ => True

theorem yields_iff {r : Result} :
    Yields P r ↔ (∀ e : Fault, r ≠ .fault e) ∧ ∀ t : State, r = .next t → P t := by
  cases r with
  | next => simp [Yields]
  | fault e => exact ⟨False.elim, fun h => h.1 e rfl⟩
  | refused => simp [Yields]

theorem Yields.next {r : Result} (h : Yields P r) (hr : r = .next t) : P t := (yields_iff.mp h).2 t hr

theorem yields_ite {c : Prop} [Decidable c] {a b : Result} (ha : Yields P a) (hb : Yields P b) :
    Yields P (if c then a else b) := by
  split
  · exact ha
  · exact hb

/-! ### The writes that instructions are made of -/

/-- Which of the accumulator, the LOCK bit and memory an instruction may write (10_state.md R44, R46, 20_memory.md R76). -/
def partsWritten : Instr → List Part
  | .mul .. | .mulhi .. | .mullo .. | .mulwhi .. | .mulwlo .. | .machi .. | .maclo .. | .macwhi .. | .macwlo .. => [.acc]
  | .rac | .rach | .mvtachi .. | .mvtaclo .. => [.acc]
  | .st .. | .stPreInc .. | .stPreDec .. | .stDisp .. | .stb .. | .stbDisp .. | .sth .. | .sthInc .. | .sthDisp .. => [.mem]
  | .lock .. => [.lock]
  | .unlock .. | .bset .. | .bclr .. => [.lock, .mem]
  | _ => []

/-- `P` survives every write of the state that an instruction can make, those of the accumulator, of the LOCK bit and of memory
only if `parts` lists them. -/
structure Closed (P : State → Prop) (parts : List Part) : Prop where
  setReg : ∀ {s : State} (r : Reg) (v : Word), P s → P (s.setReg r v)
  spi : ∀ {s : State} (v : Word), P s → P { s with spi := v }
  spu : ∀ {s : State} (v : Word), P s → P { s with spu := v }
  psw : ∀ {s : State} (p : Psw), P s → P { s with psw := p }
  bpc : ∀ {s : State} (v : Word), P s → P { s with bpc := v &&& 0xFFFFFFFE }
  fpsr : ∀ {s : State} (f : Fpsr), P s → P { s with fpsr := f }
  logAccess : ∀ {s : State} (a : Word) (n : Nat) (v : Option Word), P s → P (s.logAccess a n v)
  advance : ∀ {s : State} {len : Word}, len = 2 ∨ len = 4 → P s → P (s.advance len)
  jump : ∀ {s : State} {target : Word}, target.extractLsb' 0 2 = 0 → P s → P (s.jump target)
  acc : .acc ∈ parts → ∀ {s : State} (x : Acc), P s → P { s with acc := x }
  lock : .lock ∈ parts → ∀ {s : State} (b : Bool), P s → P { s with lock := b }
  writeByte : .mem ∈ parts → ∀ {s : State} (a : Word) (b : Byte), P s → P (s.writeByte a b)

/-! ### The endings of an instruction -/

/-- Every vector lies at a word boundary (60_exceptions.md R408). -/
theorem vector_lowBits (e : EitEvent) : e.vector.extractLsb' 0 2 = 0 := by
  cases e with
  | trap n =>
    apply BitVec.eq_of_toNat_eq
    simp only [EitEvent.vector, Config.vecTrapBase, BitVec.extractLsb'_toNat, BitVec.toNat_add, BitVec.toNat_mul]
    simp
  | ae | fpe | ei => rfl

namespace Closed

variable (hP : Closed P parts)
include hP

/-- The entry of an event writes PSW and BPC and jumps (60_exceptions.md R405). -/
theorem eitEntry (e : EitEvent) (hs : P s) : P (s.eitEntry e) :=
  hP.jump (vector_lowBits e) (hP.bpc _ (hP.psw _ hs))

/-- The return writes PSW and BPC and jumps (45_eit_instructions.md R281). -/
theorem rteReturn (hs : P s) : P s.rteReturn :=
  hP.jump (wordAlign_lowBits s.bpc) (hP.bpc _ (hP.psw _ hs))

theorem store8 (hm : .mem ∈ parts) (a : Word) (b : Byte) (hs : P s) : P (s.store8 a b) :=
  hP.logAccess _ _ _ (hP.writeByte hm _ _ hs)

theorem store16 (hm : .mem ∈ parts) (a : Word) (v : Half) (hs : P s) : P (s.store16 a v) :=
  hP.logAccess _ _ _ (hP.writeByte hm _ _ (hP.writeByte hm _ _ hs))

theorem store32 (hm : .mem ∈ parts) (a v : Word) (hs : P s) : P (s.store32 a v) :=
  hP.logAccess _ _ _ (hP.writeByte hm _ _ (hP.writeByte hm _ _ (hP.writeByte hm _ _ (hP.writeByte hm _ _ hs))))

theorem modifyByte (hl : .lock ∈ parts) (hm : .mem ∈ parts) (a : Word) (f : Byte → Byte) (hs : P s) :
    P (s.modifyByte a f) :=
  hP.lock hl _ (hP.store8 hm _ _ (hP.logAccess _ _ _ (hP.lock hl _ hs)))

/-- MVTC writes one control register, or nothing. -/
theorem writeCR {cr : CReg} {v : Word} (h : s.writeCR cr v = some t) (hs : P s) : P t := by
  obtain ⟨-, rfl⟩ | ⟨-, rfl⟩ | ⟨-, rfl⟩ | ⟨-, rfl⟩ | ⟨-, rfl⟩ | ⟨-, rfl⟩ := writeCR_cases h
  · exact hP.psw _ hs
  · exact hs
  · exact hP.spi _ hs
  · exact hP.spu _ hs
  · exact hP.bpc _ hs
  · exact hP.fpsr _ hs

theorem writeBack {d : Reg} {v len : Word} (hs : P s) (hlen : len = 2 ∨ len = 4 := by decide) :
    Yields P (s.writeBack d v len) :=
  hP.advance hlen (hP.setReg d v hs)

theorem writeBackC {d : Reg} {v len : Word} {c : Bool} (hs : P s) (hlen : len = 2 ∨ len = 4 := by decide) :
    Yields P (s.writeBackC d v c len) :=
  hP.advance hlen (hP.psw _ (hP.setReg d v hs))

theorem writeC {c : Bool} {len : Word} (hs : P s) (hlen : len = 2 ∨ len = 4 := by decide) : Yields P (s.writeC c len) :=
  hP.advance hlen (hP.psw _ hs)

theorem writeAcc (ha : .acc ∈ parts) {v : Int} (hs : P s) : Yields P (s.writeAcc v) :=
  hP.advance (.inl rfl) (hP.acc ha _ hs)

theorem branchIf {taken : Bool} {n : Nat} {pcdisp : BitVec n} {len : Word} (hs : P s)
    (hlen : len = 2 ∨ len = 4 := by decide) : Yields P (s.branchIf taken (s.relTarget pcdisp) len) :=
  yields_ite (hP.jump (target_lowBits _ _) hs) (hP.advance hlen hs)

theorem access {ok : Bool} {a : Word} {n : Nat} {done : Result} (hs : P s) (hdone : Yields P done) :
    Yields P (s.access ok a n done) :=
  yields_ite (yields_ite hdone trivial) (hP.eitEntry .ae hs)

theorem loadTo {ok : Bool} {a : Word} {n : Nat} {d : Reg} {v len : Word} (hs : P s)
    (hlen : len = 2 ∨ len = 4 := by decide) : Yields P (s.loadTo ok a n d v len) :=
  hP.access hs (hP.writeBack (hP.logAccess _ _ _ hs) hlen)

theorem storeAs {ok : Bool} {a : Word} {n : Nat} {len : Word} (hs : P s) (ht : P t)
    (hlen : len = 2 ∨ len = 4 := by decide) : Yields P (s.storeAs ok a n t len) :=
  hP.access hs (hP.advance hlen ht)

theorem modifyAs (hl : .lock ∈ parts) (hm : .mem ∈ parts) {a : Word} {f : Byte → Byte} (hs : P s) :
    Yields P (s.modifyAs a f) :=
  hP.access hs (hP.advance (.inr rfl) (hP.modifyByte hl hm a f hs))

theorem fpEnd {d : Reg} {o : FpOutcome} (hs : P s) : Yields P (s.fpEnd d o) :=
  yields_ite (hP.eitEntry .fpe (hP.fpsr _ hs)) (hP.writeBack (hP.fpsr _ hs))

theorem mvfc {d : Reg} {cr : CReg} (hs : P s) : Yields P (execMvfc d cr s) := by
  unfold execMvfc
  split
  · exact hP.writeBack hs
  · trivial

theorem mvtc {r : Reg} {cr : CReg} (hs : P s) : Yields P (execMvtc r cr s) := by
  unfold execMvtc
  split
  · next h => exact hP.advance (.inl rfl) (hP.writeCR h hs)
  · trivial

end Closed

/-- No instruction faults, and what survives the writes that an instruction can make holds in its next state. -/
theorem Closed.yields_exec {i : Instr} (hP : Closed P (partsWritten i)) (hs : P s) : Yields P (exec i s) := by
  have mem₁ {p : Part} {ps : List Part} : p ∈ p :: ps := List.mem_cons_self
  have mem₂ {p q : Part} {ps : List Part} : q ∈ p :: q :: ps := List.mem_cons_of_mem _ List.mem_cons_self
  cases i with
  | sub | add | neg | not | and | xor | or | srl | mv | sra | sll | addi | ldi8 | srli | srai | slli
  | mvfachi | mvfaclo | mvfacmi | add3 | and3 | xor3 | or3 | srl3 | sra3 | sll3 | ldi16 | seth | ld24 =>
    exact hP.writeBack hs
  | subv | addv | subx | addx | addv3 => exact hP.writeBackC hs
  | cmp | cmpu | cmpi | cmpui | btst => exact hP.writeC hs
  | divu | remu => exact yields_ite (hP.advance (.inr rfl) hs) (hP.writeBack hs)
  | div | rem =>
    exact yields_ite (hP.advance (.inr rfl) hs)
      (yields_ite (hP.writeBack hs (.inr rfl)) (hP.writeBack hs (.inr rfl)))
  | mvfc => exact hP.mvfc hs
  | mvtc => exact hP.mvtc hs
  | setpsw | clrpsw => exact hP.advance (.inl rfl) (hP.psw _ hs)
  | nop | nopPar => exact hP.advance (.inl rfl) hs
  | bc8 | bnc8 | bc24 | bnc24 | beq | bne | beqz | bnez | bltz | bgez | blez | bgtz => exact hP.branchIf hs
  | bra8 | bra24 => exact hP.jump (target_lowBits _ _) hs
  | bl8 | bl24 => exact hP.jump (target_lowBits _ _) (hP.setReg _ _ hs)
  | jmp => exact hP.jump (wordAlign_lowBits _) hs
  | jl => exact hP.jump (wordAlign_lowBits _) (hP.setReg _ _ hs)
  | trap n => exact hP.eitEntry (.trap n) hs
  | rte => exact hP.rteReturn hs
  | mul => exact hP.writeBack (hP.acc mem₁ _ hs)
  | mulhi | mullo | mulwhi | mulwlo | machi | maclo | macwhi | macwlo | rac | rach => exact hP.writeAcc mem₁ hs
  | mvtachi | mvtaclo => exact hP.advance (.inl rfl) (hP.acc mem₁ _ hs)
  | ld | ldh | lduh | ldDisp | ldhDisp | lduhDisp => exact hP.loadTo hs
  | ldb | ldub | ldbDisp | ldubDisp => exact hP.loadTo (ok := true) hs
  | ldInc => exact hP.access hs (hP.writeBack (hP.setReg _ _ (hP.logAccess _ _ _ hs)))
  | lock => exact hP.access hs (hP.writeBack (hP.lock mem₁ _ (hP.logAccess _ _ _ hs)))
  | stb | stbDisp => exact hP.storeAs (ok := true) hs (hP.store8 mem₁ _ _ hs)
  | sth | sthDisp => exact hP.storeAs hs (hP.store16 mem₁ _ _ hs)
  | st | stDisp => exact hP.storeAs hs (hP.store32 mem₁ _ _ hs)
  | sthInc => exact hP.storeAs hs (hP.setReg _ _ (hP.store16 mem₁ _ _ hs))
  | stPreInc | stPreDec => exact hP.storeAs hs (hP.store32 mem₁ _ _ (hP.setReg _ _ hs))
  | unlock =>
    exact yields_ite (hP.storeAs hs (hP.lock mem₁ _ (hP.store32 mem₂ _ _ hs)))
      (yields_ite (hP.advance (.inl rfl) (hP.lock mem₁ _ hs)) (hP.eitEntry .ae hs))
  | bset | bclr => exact hP.modifyAs mem₁ mem₂ hs
  | fadd | fsub | fmul | fdiv | fmadd | fmsub | fcmp | fcmpe | itof | utof | ftoi | ftos => exact hP.fpEnd hs

/-! ### The invariant -/

theorem inv_iff : s.Inv ↔ Memory.wf s.mem = true ∧ s.pc.getLsbD 0 = false ∧ s.bpc.getLsbD 0 = false := Iff.rfl

/-- The next instruction of one at an even address lies at an even address. -/
theorem even_add_len {a len : Word} (hlen : len = 2 ∨ len = 4) (ha : a.getLsbD 0 = false) : (a + len).getLsbD 0 = false := by
  rw [lowBit_eq_false_iff] at ha ⊢
  obtain rfl | rfl := hlen <;> simp [BitVec.toNat_add] <;> omega

/-- A word boundary is even. -/
theorem even_of_lowBits {a : Word} (h : a.extractLsb' 0 2 = 0) : a.getLsbD 0 = false := by
  simpa using congrArg (·.getLsbD 0) h

/-- What BPC takes is even (10_state.md R34). -/
theorem even_and_mask (v : Word) : (v &&& 0xFFFFFFFE).getLsbD 0 = false := by simp

/-- The invariant survives every write that any instruction makes. -/
theorem closed_inv (parts : List Part) : Closed State.Inv parts where
  setReg r v h := by simpa [inv_iff] using h
  spi _ h := h
  spu _ h := h
  psw _ h := h
  bpc v := fun ⟨hmem, hpc, _⟩ => ⟨hmem, hpc, even_and_mask v⟩
  fpsr _ h := h
  logAccess a n v h := by simpa [inv_iff] using h
  advance hlen := fun ⟨hmem, hpc, hbpc⟩ => ⟨hmem, even_add_len hlen hpc, hbpc⟩
  jump htarget := fun ⟨hmem, _, hbpc⟩ => ⟨hmem, even_of_lowBits htarget, hbpc⟩
  acc _ _ _ h := h
  lock _ _ _ h := h
  writeByte _ _ a b := fun ⟨hmem, hpc, hbpc⟩ => ⟨writeByte_wf a b hmem, by rwa [writeByte_pc], by rwa [writeByte_bpc]⟩

/-- Reset keeps the memory and starts at the vector. -/
theorem inv_takeReset (h : s.Inv) : s.takeReset.Inv := ⟨h.1, by rw [takeReset_pc]; rfl, by rw [takeReset_bpc]; rfl⟩

theorem yields_tickResult {r : Result} (hP : ∀ t : State, P t → P t.tick) (h : Yields P r) : Yields P (tickResult r) := by
  cases r with
  | next t => exact hP t h
  | fault => exact h
  | refused => trivial

/-- A step is a reset, the entry of the interrupt, a refusal or an instruction: the only fault is that of an odd PC. -/
theorem yields_step (hs : s.Inv) : Yields State.Inv (step s) := by
  unfold step
  refine yields_ite (inv_takeReset (s := s) hs) (yields_ite ((closed_inv []).eitEntry .ei hs) ?_)
  have ⟨_, hpc, _⟩ := hs
  simp only [hpc, Bool.false_eq_true, if_false]
  refine yields_ite trivial ?_
  split
  · trivial
  · exact yields_tickResult (fun _ ht => ht) ((closed_inv _).yields_exec hs)

/-- Settles O7: the invariant survives every write that an instruction makes. -/
theorem everyStepKeepsTheInvariant : Obligations.EveryStepKeepsTheInvariant :=
  fun _ hs => yields_iff.mp (yields_step hs)

/-! ### The accumulator -/

/-- What the accumulator holds survives every write but its own. -/
theorem closed_acc (x : Acc) (hparts : .acc ∉ parts) : Closed (fun s => s.acc = x) parts where
  setReg _ _ h := by rw [setReg_acc, h]
  spi _ h := h
  spu _ h := h
  psw _ h := h
  bpc _ h := h
  fpsr _ h := h
  logAccess _ _ _ h := by rw [logAccess_acc, h]
  advance _ h := h
  jump _ h := h
  acc ha := absurd ha hparts
  lock _ _ _ h := h
  writeByte _ _ _ _ h := by rw [writeByte_acc, h]

/-- The frame of the accumulator. -/
theorem exec_acc {i : Instr} (h : exec i s = .next t) (hi : .acc ∉ partsWritten i) : t.acc = s.acc :=
  ((closed_acc s.acc hi).yields_exec rfl).next h

/-- The instructions that write the accumulator (10_state.md R44). -/
theorem writesAcc_cases {i : Instr} (h : .acc ∈ partsWritten i) :
    (∃ a b : Reg, i = .mul a b ∨ i = .mulhi a b ∨ i = .mullo a b ∨ i = .mulwhi a b ∨ i = .mulwlo a b ∨
      i = .machi a b ∨ i = .maclo a b ∨ i = .macwhi a b ∨ i = .macwlo a b) ∨
    i = .rac ∨ i = .rach ∨ (∃ r : Reg, i = .mvtachi r ∨ i = .mvtaclo r) := by
  cases i with
  | mul a b | mulhi a b | mullo a b | mulwhi a b | mulwlo a b | machi a b | maclo a b | macwhi a b | macwlo a b =>
    exact .inl ⟨a, b, by simp⟩
  | rac => exact .inr (.inl rfl)
  | rach => exact .inr (.inr (.inl rfl))
  | mvtachi r | mvtaclo r => exact .inr (.inr (.inr ⟨r, by simp⟩))
  | _ => simp [partsWritten] at h

/-- Settles O11: of an instruction that does not write the accumulator, each write keeps it. -/
theorem onlyMulAndDspInstructionsChangeTheAccumulator : Obligations.OnlyMulAndDspInstructionsChangeTheAccumulator := by
  intro i s t h hne
  by_contra hi
  exact hne (exec_acc h fun hacc => hi (writesAcc_cases hacc))

end Sys2Proof.Machine
end

section
/-! PROOFS. Memory and devices (20_memory.md): the frame of memory, and what a data access leaves in memory and shows to devices.

`Closed.yields_exec` gives the frame. Of a data access, `Touches` says what it does to memory and to devices: it holds of each
memory operation, is transitive, and `completes_touches` walks through the accessing instructions once. `StateButAccess` says
that the rest of the state stays; from it come the registers, the LOCK bit and the program counter. -/

namespace Sys2Proof.Machine

variable {s t u : State} {i : Instr} {parts : List Part} {a : Word} {n : Nat}

/-! ### The frame of memory -/

/-- What memory holds survives every write but its own. -/
theorem closed_mem (m : Memory) (hparts : .mem ∉ parts) : Closed (fun s => s.mem = m) parts where
  setReg _ _ h := by rw [setReg_mem, h]
  spi _ h := h
  spu _ h := h
  psw _ h := h
  bpc _ h := h
  fpsr _ h := h
  logAccess _ _ _ h := by rw [logAccess_mem, h]
  advance _ h := h
  jump _ h := h
  acc _ _ _ h := h
  lock _ _ _ h := h
  writeByte hm := absurd hm hparts

/-- The frame of memory. -/
theorem exec_mem (h : exec i s = .next t) (hi : .mem ∉ partsWritten i) : t.mem = s.mem :=
  ((closed_mem s.mem hi).yields_exec rfl).next h

/-- The instructions that write memory (20_memory.md R76). -/
theorem writesMem_cases (h : .mem ∈ partsWritten i) :
    (∃ a b : Reg, i = .st a b ∨ i = .stPreInc a b ∨ i = .stPreDec a b ∨ i = .stb a b ∨ i = .sth a b ∨ i = .sthInc a b ∨
      i = .unlock a b) ∨
    (∃ (a b : Reg) (x : BitVec 16), i = .stDisp a x b ∨ i = .stbDisp a x b ∨ i = .sthDisp a x b) ∨
    (∃ (p : BitVec 3) (x : BitVec 16) (r : Reg), i = .bset p x r ∨ i = .bclr p x r) := by
  cases i with
  | st a b | stPreInc a b | stPreDec a b | stb a b | sth a b | sthInc a b | unlock a b => exact .inl ⟨a, b, by simp⟩
  | stDisp a x b | stbDisp a x b | sthDisp a x b => exact .inr (.inl ⟨a, b, x, by simp⟩)
  | bset p x r | bclr p x r => exact .inr (.inr ⟨p, x, r, by simp⟩)
  | _ => simp [partsWritten] at h

/-- Settles O12: of an instruction that does not write memory, each write keeps it. -/
theorem onlyStoringInstructionsChangeMemory : Obligations.OnlyStoringInstructionsChangeMemory := by
  intro i s t h hne
  by_contra hi
  exact hne (exec_mem h fun hmem => hi (writesMem_cases hmem))

/-! ### What an access does to memory and to devices -/

/-- From `s` to `t` the accesses `vs`, the newest first, were made to the `n` bytes from `a` on: devices saw them all if one backs
any of the bytes, and of memory only bytes of plain memory among them may have changed (20_memory.md R76, R78, R80). -/
structure Touches (a : Word) (n : Nat) (vs : List (Option Word)) (s t : State) : Prop where
  memMap : t.memMap = s.memMap
  devLog : s.allBacked a n noDevice = false →
    t.devLog = vs.map (fun v => { addr := a.toNat, width := n, stored := v }) ++ s.devLog
  mem : ∀ k : Nat, (∀ j < n, s.backing (a + BitVec.ofNat 32 j) = .ram → k ≠ (a + BitVec.ofNat 32 j).toNat) →
    Memory.read t.mem k = Memory.read s.mem k

theorem backing_congr (h : t.memMap = s.memMap) (a : Word) : t.backing a = s.backing a := by
  simp only [State.backing, h]

/-- A write of no memory and of no device touches nothing. -/
theorem touches_nil (hmap : t.memMap = s.memMap) (hlog : t.devLog = s.devLog) (hmem : t.mem = s.mem) :
    Touches a n [] s t :=
  ⟨hmap, fun _ => hlog, fun _ _ => by rw [hmem]⟩

theorem Touches.trans {vs ws : List (Option Word)} (h : Touches a n vs s t) (h' : Touches a n ws t u) :
    Touches a n (ws ++ vs) s u where
  memMap := h'.memMap.trans h.memMap
  devLog hd := by
    rw [h'.devLog (by rwa [allBacked_congr h.memMap]), h.devLog hd, List.map_append, List.append_assoc]
  mem k hk :=
    (h'.mem k fun j hj hr => hk j hj (by rwa [← backing_congr h.memMap])).trans (h.mem k hk)

/-- What changes neither memory nor a device may follow an access. -/
theorem Touches.congr {vs : List (Option Word)} (h : Touches a n vs s t) (hmap : u.memMap = t.memMap)
    (hlog : u.devLog = t.devLog) (hmem : u.mem = t.mem) : Touches a n vs s u :=
  h.trans (touches_nil hmap hlog hmem)

theorem logAccess_devLog_of_device (hd : s.allBacked a n noDevice = false) (v : Option Word) :
    (s.logAccess a n v).devLog = { addr := a.toNat, width := n, stored := v } :: s.devLog := by
  simp [logAccess_devLog, hd]

theorem touches_afterLoad (s : State) (a : Word) (n : Nat) : Touches a n [none] s (s.afterLoad a n) where
  memMap := afterLoad_memMap s a n
  devLog hd := logAccess_devLog_of_device hd none
  mem _ _ := by rw [afterLoad_mem]

theorem touches_store8 (hm : Memory.wf s.mem = true) (a : Word) (b : Byte) :
    Touches a 1 [some (b.zeroExtend 32)] s (s.store8 a b) where
  memMap := store8_memMap s a b
  devLog hd := by rw [store8_devLog, logAccess_devLog_of_device hd]; rfl
  mem k hk := by
    have h0 : s.backing a = .ram → k ≠ a.toNat := by simpa using hk 0 (by omega)
    rw [read_store8 a b k hm, if_neg fun e => h0 e.2 e.1]

theorem touches_store16 (hm : Memory.wf s.mem = true) (a : Word) (v : Half) :
    Touches a 2 [some (v.zeroExtend 32)] s (s.store16 a v) where
  memMap := store16_memMap s a v
  devLog hd := by rw [store16_devLog, logAccess_devLog_of_device hd]; rfl
  mem k hk := by
    have h0 : s.backing a = .ram → k ≠ a.toNat := by simpa using hk 0 (by omega)
    rw [read_store16 a v k hm, if_neg fun e => hk 1 (by omega) e.2 e.1, if_neg fun e => h0 e.2 e.1]

theorem touches_store32 (hm : Memory.wf s.mem = true) (a v : Word) : Touches a 4 [some v] s (s.store32 a v) where
  memMap := store32_memMap s a v
  devLog hd := by rw [store32_devLog, logAccess_devLog_of_device hd]; rfl
  mem k hk := by
    have h0 : s.backing a = .ram → k ≠ a.toNat := by simpa using hk 0 (by omega)
    rw [read_store32 a v k hm, if_neg fun e => hk 3 (by omega) e.2 e.1, if_neg fun e => hk 2 (by omega) e.2 e.1,
      if_neg fun e => hk 1 (by omega) e.2 e.1, if_neg fun e => h0 e.2 e.1]

/-- The read-modify-write is a read and then a write (49_bit_operation.md R390). -/
theorem touches_modifyByte (hm : Memory.wf s.mem = true) (a : Word) (f : Byte → Byte) :
    Touches a 1 [some ((f (s.readByte 1 a)).zeroExtend 32), none] s (s.modifyByte a f) := by
  have hread := touches_afterLoad ({ s with lock := true } : State) a 1
  have hwrite := touches_store8 (s := ({ s with lock := true } : State).afterLoad a 1)
    (by rw [afterLoad_mem]; exact hm) a (f (s.readByte 1 a))
  have hlock : Touches a 1 [] s { s with lock := true } := touches_nil rfl rfl rfl
  exact ((hlock.trans hread).trans hwrite).congr rfl rfl rfl

/-- What a store shows of its register: the low byte, or the low halfword. -/
theorem lowBits_zeroExtend (v : Word) :
    (v.extractLsb' 0 8).zeroExtend 32 = v &&& 0xFF ∧ (v.extractLsb' 0 16).zeroExtend 32 = v &&& 0xFFFF := by
  have h8 := Nat.and_two_pow_sub_one_eq_mod v.toNat 8
  have h16 := Nat.and_two_pow_sub_one_eq_mod v.toNat 16
  constructor
  · apply BitVec.eq_of_toNat_eq
    simp at h8 ⊢
    omega
  · apply BitVec.eq_of_toNat_eq
    simp at h16 ⊢
    omega

/-- A store of a register's low byte. -/
theorem touches_storeLowByte (hm : Memory.wf s.mem = true) (a v : Word) :
    Touches a 1 [some (v &&& 0xFF)] s (s.store8 a (v.extractLsb' 0 8)) :=
  (lowBits_zeroExtend v).1 ▸ touches_store8 hm a _

/-- A store of a register's low halfword. -/
theorem touches_storeLowHalf (hm : Memory.wf s.mem = true) (a v : Word) :
    Touches a 2 [some (v &&& 0xFFFF)] s (s.store16 a (v.extractLsb' 0 16)) :=
  (lowBits_zeroExtend v).2 ▸ touches_store16 hm a _

/-- A store of a word after its base was updated. -/
theorem touches_setReg_store32 (hm : Memory.wf s.mem = true) (a : Word) (r b : Reg) :
    Touches a 4 [some (if r = b then a else s.reg r)] s ((s.setReg b a).store32 a ((s.setReg b a).reg r)) := by
  have hbase : Touches a 4 [] s (s.setReg b a) := touches_nil (by simp) (by simp) (by simp)
  rw [← reg_setReg]
  exact hbase.trans (touches_store32 (by simpa using hm) a _)

/-- Only bytes of the access may have changed. -/
theorem Touches.memKeptBut {vs : List (Option Word)} (h : Touches a n vs s t) : MemKeptBut a n s t :=
  fun k hk => h.mem k fun j hj _ => hk j hj

/-- Memory takes no byte that plain memory does not back. -/
theorem Touches.byteAt_of_not_ram {vs : List (Option Word)} (h : Touches a n vs s t) {k : Word} (hk : s.backing k ≠ .ram) :
    byteAt t k = byteAt s k :=
  h.mem k.toNat fun _ _ hr he => hk (BitVec.eq_of_toNat_eq he ▸ hr)

/-- An access in the range of a device is one that reaches a device. -/
theorem allBacked_noDevice_of_device {j k : Nat} (hj : j < n) (hk : s.backing (a + BitVec.ofNat 32 j) = .device k) :
    s.allBacked a n noDevice = false := by
  rw [← Bool.not_eq_true, allBacked_iff]
  exact fun h => by simpa [hk, noDevice] using h j hj

/-! ### The instructions that access data -/

theorem aligned2_of_mod (h : a.toNat % 2 = 0) : aligned2 a = true := (aligned2_iff a).mpr h

theorem aligned4_of_mod (h : a.toNat % 4 = 0) : aligned4 a = true := (aligned4_iff a).mpr h

/-- An instruction whose only access is aligned and backed ends as that access ends. -/
theorem completes_of_access {P : State → Prop} {ok : Bool} (h : exec i s = s.access ok a n (.next t)) (hok : ok = true)
    (hb : s.backed a n = true) (ht : P t) : Completes i s P :=
  ⟨t, h.trans (access_of_backed hok hb), ht⟩

theorem touches_of_loadTo {ok : Bool} {d : Reg} {v len : Word} (h : exec i s = s.loadTo ok a n d v len) (hok : ok = true)
    (hb : s.backed a n = true) : Completes i s (Touches a n [none] s) :=
  completes_of_access h hok hb ((touches_afterLoad s a n).congr (by simp) (by simp) (by simp))

theorem touches_of_storeAs {vs : List (Option Word)} {ok : Bool} {len : Word} (h : exec i s = s.storeAs ok a n u len)
    (hok : ok = true) (hb : s.backed a n = true) (hu : Touches a n vs s u) : Completes i s (Touches a n vs s) :=
  completes_of_access h hok hb (hu.congr rfl rfl rfl)

theorem touches_of_modifyAs {f : Byte → Byte} (h : exec i s = s.modifyAs a f) (hm : Memory.wf s.mem = true)
    (hb : s.backed a 1 = true) : Completes i s (Touches a 1 [some ((f (s.readByte 1 a)).zeroExtend 32), none] s) :=
  completes_of_access h rfl hb ((touches_modifyByte hm a f).congr rfl rfl rfl)

/-- An instruction makes the accesses that `dataAccess` says, and no other, where they are aligned and backed. -/
theorem completes_touches {vs : List (Option Word)} (hm : Memory.wf s.mem = true) (h : dataAccess i s = some (a, n, vs))
    (ha : a.toNat % n = 0) (hb : s.backed a n = true) : Completes i s (Touches a n vs s) := by
  cases i with
  | ldb d b | ldub d b | ldbDisp d x b | ldubDisp d x b =>
    cases h
    exact touches_of_loadTo rfl rfl hb
  | ldh d b | lduh d b | ldhDisp d x b | lduhDisp d x b =>
    cases h
    exact touches_of_loadTo rfl (aligned2_of_mod ha) hb
  | ld d b | ldDisp d x b =>
    cases h
    exact touches_of_loadTo rfl (aligned4_of_mod ha) hb
  | ldInc d b | lock d b =>
    cases h
    exact completes_of_access rfl (aligned4_of_mod ha) hb
      ((touches_afterLoad ..).congr (by simp) (by simp [State.eaIndirect]) (by simp))
  | stb r b | stbDisp r x b =>
    cases h
    exact touches_of_storeAs rfl rfl hb (touches_storeLowByte hm ..)
  | sth r b | sthDisp r x b =>
    cases h
    exact touches_of_storeAs rfl (aligned2_of_mod ha) hb (touches_storeLowHalf hm ..)
  | sthInc r b =>
    cases h
    exact touches_of_storeAs rfl (aligned2_of_mod ha) hb
      ((touches_storeLowHalf hm ..).congr (setReg_memMap ..) (setReg_devLog ..) (setReg_mem ..))
  | st r b | stDisp r x b =>
    cases h
    exact touches_of_storeAs rfl (aligned4_of_mod ha) hb (touches_store32 hm ..)
  | stPreInc r b | stPreDec r b =>
    cases h
    exact touches_of_storeAs rfl (aligned4_of_mod ha) hb (touches_setReg_store32 hm ..)
  | unlock r b =>
    rw [dataAccess] at h
    split at h
    · next hl =>
      cases h
      exact touches_of_storeAs (if_pos hl) (aligned4_of_mod ha) hb ((touches_store32 hm ..).congr rfl rfl rfl)
    · cases h
  | bset p x b =>
    cases h
    exact touches_of_modifyAs (f := (· ||| bitMask p)) rfl hm hb
  | bclr p x b =>
    cases h
    exact touches_of_modifyAs (f := (· &&& ~~~ bitMask p)) rfl hm hb
  | _ => simp [dataAccess] at h

/-! ### What an access leaves as it is -/

/-- From `s` to `u` nothing changed but memory, the instruction queue, the LOCK bit and what devices saw. -/
structure StateButAccess (s u : State) : Prop where
  gpr : u.gpr = s.gpr
  spi : u.spi = s.spi
  spu : u.spu = s.spu
  psw : u.psw = s.psw
  bpc : u.bpc = s.bpc
  fpsr : u.fpsr = s.fpsr
  acc : u.acc = s.acc
  pc : u.pc = s.pc
  memMap : u.memMap = s.memMap
  extInt : u.extInt = s.extInt
  resetReq : u.resetReq = s.resetReq

theorem stateButAccess_afterLoad (s : State) (a : Word) (n : Nat) : StateButAccess s (s.afterLoad a n) := by
  constructor <;> simp

theorem stateButAccess_store8 (s : State) (a : Word) (b : Byte) : StateButAccess s (s.store8 a b) := by
  constructor <;> simp

theorem stateButAccess_store16 (s : State) (a : Word) (v : Half) : StateButAccess s (s.store16 a v) := by
  constructor <;> simp

theorem stateButAccess_store32 (s : State) (a v : Word) : StateButAccess s (s.store32 a v) := by
  constructor <;> simp

theorem stateButAccess_modifyByte (s : State) (a : Word) (f : Byte → Byte) : StateButAccess s (s.modifyByte a f) := by
  constructor <;> simp

namespace StateButAccess

theorem withLock (h : StateButAccess s u) (b : Bool) : StateButAccess s { u with lock := b } := { h with }

theorem regsKeptBut (h : StateButAccess s u) (regs : List Reg) : RegsKeptBut regs s u :=
  regsKeptBut_of_banks regs h.gpr h.spi h.spu (by rw [h.psw])

/-- A register write after an access changes no other register. -/
theorem regsKeptBut_setReg (h : StateButAccess s u) (d : Reg) (v : Word) : RegsKeptBut [d] s (u.setReg d v) :=
  (h.regsKeptBut []).trans (Machine.regsKeptBut_setReg u d v) (by rw [h.psw]) (by simp) (by simp)

theorem keepsBut (h : StateButAccess s u) : KeepsBut [.mem, .lock, .devices] s u := by
  simp [KeepsBut, h.psw, h.bpc, h.fpsr, h.acc, h.memMap, h.extInt, h.resetReq]

end StateButAccess

/-- A store, UNLOCK, BSET or BCLR leaves in `t` the registers of `s`, `base` apart, and the LOCK bit, which it may clear, and
goes on `len` bytes further. -/
def StoreLeaves (base : Option (Reg × Word)) (clears : Bool) (len : Word) (s t : State) : Prop :=
  (∀ (q : Reg) (v : Word), base = some (q, v) → t.reg q = v) ∧ RegsKeptBut (base.elim [] fun q => [q.1]) s t ∧
  KeepsBut [.mem, .lock, .devices] s t ∧ t.lock = (s.lock && !clears) ∧ t.pc = s.pc + len

/-- A store without an update. -/
theorem storeLeaves_none {clears : Bool} (h : StateButAccess s u) (hl : u.lock = (s.lock && !clears)) (len : Word) :
    StoreLeaves none clears len s (u.advance len) :=
  ⟨nofun, h.regsKeptBut [], h.keepsBut, hl, congrArg (· + len) h.pc⟩

/-- A store whose base was updated before it. -/
theorem storeLeaves_updateFirst {b : Reg} {v : Word} (h : StateButAccess (s.setReg b v) u) (hl : u.lock = s.lock)
    (len : Word) : StoreLeaves (some (b, v)) false len s (u.advance len) := by
  have hv : u.reg b = v := by rw [(h.regsKeptBut []).1 b (by simp), reg_setReg_same]
  refine ⟨by rintro q w ⟨⟩; exact hv, ?_, ?_, by simpa using hl, by simp [h.pc]⟩
  · exact (regsKeptBut_setReg s b v).trans (h.regsKeptBut []) (by simp) (by simp) (by simp)
  · simpa [KeepsBut] using h.keepsBut

/-- A store whose base is updated after it. -/
theorem storeLeaves_updateLast {b : Reg} {v : Word} (h : StateButAccess s u) (hl : u.lock = s.lock) (len : Word) :
    StoreLeaves (some (b, v)) false len s ((u.setReg b v).advance len) := by
  refine ⟨by rintro q w ⟨⟩; simp, h.regsKeptBut_setReg b v, ?_, by simpa using hl, by simp [h.pc]⟩
  simpa [KeepsBut] using h.keepsBut

/-- A load from what the platform backs writes its destination, and devices may see it. -/
theorem writesReg_of_loadTo_backed {ok : Bool} {d : Reg} {v len : Word} (h : exec i s = s.loadTo ok a n d v len)
    (hok : ok = true) (hb : s.backed a n = true) : WritesReg i s d v len [.devices] :=
  completes_of_access h hok hb
    ⟨by simp, (stateButAccess_afterLoad s a n).regsKeptBut_setReg d v, by simp [KeepsBut], by simp⟩

/-! ### Devices -/

/-- The device's part of an access: it sees each access of it, and memory takes none of its bytes (20_memory.md R78, R80). -/
theorem completes_of_device {vs : List (Option Word)} (hm : Memory.wf s.mem = true) (h : dataAccess i s = some (a, n, vs))
    (ha : a.toNat % n = 0) (hb : s.backed a n = true)
    (hd : ∃ j < n, ∃ k : Nat, s.backing (a + BitVec.ofNat 32 j) = .device k) :
    Completes i s fun t =>
      t.devLog = vs.map (fun v => { addr := a.toNat, width := n, stored := v }) ++ s.devLog ∧ MemKeptBut a n s t ∧
      ∀ j < n, s.backing (a + BitVec.ofNat 32 j) ≠ .ram →
        byteAt t (a + BitVec.ofNat 32 j) = byteAt s (a + BitVec.ofNat 32 j) := by
  obtain ⟨j, hj, k, hk⟩ := hd
  obtain ⟨t, hexec, ht⟩ := completes_touches hm h ha hb
  exact ⟨t, hexec, ht.devLog (allBacked_noDevice_of_device hj hk), ht.memKeptBut, fun _ _ hr => ht.byteAt_of_not_ram hr⟩

/-- LD @R+ loads and then adds 4 to its base, to the loaded word where both are one register (40_load_store.md R143, decision
D13). -/
theorem ldInc_of_backed {d b : Reg} (ha : (s.reg b).toNat % 4 = 0) (hb : s.backed (s.reg b) 4 = true) :
    Completes (.ldInc d b) s fun t =>
      (d ≠ b → t.reg d = s.load32 (s.reg b) ∧ t.reg b = s.reg b + 4) ∧ (d = b → t.reg b = s.load32 (s.reg b) + 4) ∧
      RegsKeptBut [d, b] s t ∧ KeepsBut [.devices] s t ∧ t.pc = s.pc + 2 := by
  refine completes_of_access rfl (aligned4_of_mod ha) hb ⟨fun hdb => ?_, fun hdb => ?_, ?_, by simp [KeepsBut], by simp⟩
  · simp [reg_setReg, hdb, hdb.symm, State.eaIndirect]
  · simp [hdb, State.eaIndirect]
  · exact ((stateButAccess_afterLoad ..).regsKeptBut_setReg ..).trans (regsKeptBut_setReg ..) (by simp) (by simp) (by simp)

/-- LOCK loads and sets the LOCK bit (40_load_store.md R153). -/
theorem lock_of_backed {d b : Reg} (ha : (s.reg b).toNat % 4 = 0) (hb : s.backed (s.reg b) 4 = true) :
    WritesReg (.lock d b) s d (s.load32 (s.reg b)) 2 [.lock, .devices] ∧ Completes (.lock d b) s fun t => t.lock = true :=
  ⟨completes_of_access rfl (aligned4_of_mod ha) hb
      ⟨by simp [State.eaIndirect], ((stateButAccess_afterLoad ..).withLock true).regsKeptBut_setReg .., by simp [KeepsBut],
        by simp⟩,
    completes_of_access rfl (aligned4_of_mod ha) hb (by simp)⟩

/-- What the stores, UNLOCK, BSET and BCLR leave, for each of their shapes (40_load_store.md R154 to R163, 49_bit_operation.md
R390, R391). -/
theorem completes_storeLeaves {r b : Reg} {x : BitVec 16} {p : BitVec 3} {base : Option (Reg × Word)} {clears : Bool}
    {len : Word} {vs : List (Option Word)}
    (hi : (i ∈ [Instr.stb r b, .sth r b, .st r b] ∧ base = none ∧ clears = false ∧ len = 2) ∨
      (i ∈ [Instr.stbDisp r x b, .sthDisp r x b, .stDisp r x b] ∧ base = none ∧ clears = false ∧ len = 4) ∨
      (i = .stPreInc r b ∧ base = some (b, s.reg b + 4) ∧ clears = false ∧ len = 2) ∨
      (i = .stPreDec r b ∧ base = some (b, s.reg b - 4) ∧ clears = false ∧ len = 2) ∨
      (i = .sthInc r b ∧ base = some (b, s.reg b + 2) ∧ clears = false ∧ len = 2) ∨
      (i = .unlock r b ∧ base = none ∧ clears = true ∧ len = 2) ∨
      (i ∈ [Instr.bset p x b, .bclr p x b] ∧ base = none ∧ clears = true ∧ len = 4))
    (h : dataAccess i s = some (a, n, vs)) (ha : a.toNat % n = 0) (hb : s.backed a n = true) :
    Completes i s (StoreLeaves base clears len s) := by
  simp only [List.mem_cons, List.not_mem_nil, or_false] at hi
  obtain ⟨rfl | rfl | rfl, rfl, rfl, rfl⟩ | ⟨rfl | rfl | rfl, rfl, rfl, rfl⟩ | ⟨rfl, rfl, rfl, rfl⟩ | ⟨rfl, rfl, rfl, rfl⟩ |
    ⟨rfl, rfl, rfl, rfl⟩ | ⟨rfl, rfl, rfl, rfl⟩ | ⟨rfl | rfl, rfl, rfl, rfl⟩ := hi
  · cases h
    exact completes_of_access rfl rfl hb (storeLeaves_none (stateButAccess_store8 ..) (by simp) 2)
  · cases h
    exact completes_of_access rfl (aligned2_of_mod ha) hb (storeLeaves_none (stateButAccess_store16 ..) (by simp) 2)
  · cases h
    exact completes_of_access rfl (aligned4_of_mod ha) hb (storeLeaves_none (stateButAccess_store32 ..) (by simp) 2)
  · cases h
    exact completes_of_access rfl rfl hb (storeLeaves_none (stateButAccess_store8 ..) (by simp) 4)
  · cases h
    exact completes_of_access rfl (aligned2_of_mod ha) hb (storeLeaves_none (stateButAccess_store16 ..) (by simp) 4)
  · cases h
    exact completes_of_access rfl (aligned4_of_mod ha) hb (storeLeaves_none (stateButAccess_store32 ..) (by simp) 4)
  · cases h
    exact completes_of_access rfl (aligned4_of_mod ha) hb (storeLeaves_updateFirst (stateButAccess_store32 ..) (by simp) 2)
  · cases h
    exact completes_of_access rfl (aligned4_of_mod ha) hb (storeLeaves_updateFirst (stateButAccess_store32 ..) (by simp) 2)
  · cases h
    exact completes_of_access rfl (aligned2_of_mod ha) hb (storeLeaves_updateLast (stateButAccess_store16 ..) (by simp) 2)
  · rw [dataAccess] at h
    split at h
    · next hl =>
      cases h
      exact completes_of_access (if_pos hl) (aligned4_of_mod ha) hb
        (storeLeaves_none ((stateButAccess_store32 ..).withLock false) (by simp) 2)
    · cases h
  all_goals
    cases h
    exact completes_of_access rfl rfl hb (storeLeaves_none (stateButAccess_modifyByte ..) (by simp) 4)

/-- The plain loads, from whatever backs their address. -/
theorem plainLoads_of_backed {d r : Reg} {x : BitVec 16} {len : Word} {i8 u8 i16 u16 w : Instr}
    (h : (a = s.reg r ∧ len = 2 ∧ i8 = .ldb d r ∧ u8 = .ldub d r ∧ i16 = .ldh d r ∧ u16 = .lduh d r ∧ w = .ld d r) ∨
      (a = s.reg r + x.signExtend 32 ∧ len = 4 ∧ i8 = .ldbDisp d x r ∧ u8 = .ldubDisp d x r ∧ i16 = .ldhDisp d x r ∧
        u16 = .lduhDisp d x r ∧ w = .ldDisp d x r)) :
    (s.backed a 1 = true → WritesReg i8 s d (sext (s.load8 a)) len [.devices] ∧
      WritesReg u8 s d (zext (s.load8 a)) len [.devices]) ∧
    (a.toNat % 2 = 0 → s.backed a 2 = true → WritesReg i16 s d (sext (s.load16 a)) len [.devices] ∧
      WritesReg u16 s d (zext (s.load16 a)) len [.devices]) ∧
    (a.toNat % 4 = 0 → s.backed a 4 = true → WritesReg w s d (s.load32 a) len [.devices]) := by
  obtain ⟨rfl, rfl, rfl, rfl, rfl, rfl, rfl⟩ | ⟨rfl, rfl, rfl, rfl, rfl, rfl, rfl⟩ := h
  all_goals
    exact ⟨fun hb => ⟨writesReg_of_loadTo_backed rfl rfl hb, writesReg_of_loadTo_backed rfl rfl hb⟩,
      fun ha hb =>
        ⟨writesReg_of_loadTo_backed rfl (aligned2_of_mod ha) hb, writesReg_of_loadTo_backed rfl (aligned2_of_mod ha) hb⟩,
      fun ha hb => writesReg_of_loadTo_backed rfl (aligned4_of_mod ha) hb⟩

/-- Settles O28: each accessing instruction makes the accesses of `dataAccess` (`completes_touches`), and around them it reads and
leaves what it does on plain memory. -/
theorem devicesSeeEachDataAccessOnce : Obligations.DevicesSeeEachDataAccessOnce := by
  intro s hm
  refine ⟨fun i a n vs => completes_of_device hm, fun n k a hk => by simp [State.readByte, hk], ?_, ?_, ?_⟩
  · rintro d b ha hb v rfl
    exact ⟨ldInc_of_backed ha hb, lock_of_backed ha hb⟩
  · exact fun r b x p i base clears len hi a n vs => completes_storeLeaves hi
  · exact fun d r x a len i8 u8 i16 u16 w => plainLoads_of_backed

end Sys2Proof.Machine
end

section
/-! PROOFS. Decoder and encoder, the step that runs what was decoded, the next program counter (30_encoding.md).

`decodeCode_encode` walks through the instructions: the table that an encoding selects answers the instruction. The
`encode_of_decode…` lemmas walk through the tables: each row answers the instruction that has the row's fields, so that whatever
is accepted is an encoding. `pcMoves_exec` walks through the endings of the instructions, as `Closed.yields_exec` does, but with the
length of each instruction's own encoding. -/

namespace Sys2Proof

variable {h l : Half} {i : Instr}

/-! ### A halfword by its fields -/

/-- The formats with four fields of four bits put a halfword together again. -/
theorem rr16_eq {a b c d : BitVec 4} (ha : op1 h = a) (hb : r1 h = b) (hc : op2 h = c) (hd : r2 h = d) :
    rr16 a b c d = h := by
  rw [← ha, ← hb, ← hc, ← hd, rr16_fields]

theorem ri8_eq {a b : BitVec 4} {c : BitVec 8} (ha : op1 h = a) (hb : r1 h = b) (hc : low8 h = c) : ri8 a b c = h := by
  rw [← ha, ← hb, ← hc, ri8_fields]

theorem ri5_eq {a b : BitVec 4} {c : BitVec 3} {d : BitVec 5} (ha : op1 h = a) (hb : r1 h = b) (hc : op3 h = c)
    (hd : low5 h = d) : ri5 a b c d = h := by
  rw [← ha, ← hb, ← hc, ← hd, ri5_fields]

/-- A word of the formats I24 and B24 is its two upper fields and its 24 low-order bits. -/
theorem i24_eq {a b : BitVec 4} (ha : op1 h = a) (hb : r1 h = b) : i24 a b (low24 h l) = .word h l := by
  have hhigh : (low24 h l).extractLsb' 16 8 = low8 h :=
    (field_of_upper (h.extractLsb' 0 8) l 0 8).trans (BitVec.extractLsb'_eq_self ..)
  have hlow : (low24 h l).extractLsb' 0 16 = l :=
    (field_of_lower (h.extractLsb' 0 8) l 0 16 (by omega)).trans (BitVec.extractLsb'_eq_self ..)
  rw [i24, hhigh, hlow, ri8_eq ha hb rfl]

theorem rri32_eq {a b c d : BitVec 4} (ha : op1 h = a) (hb : r1 h = b) (hc : op2 h = c) (hd : r2 h = d) :
    rri32 a b c d l = .word h l := by
  rw [rri32, rr16_eq ha hb hc hd]

theorem fp32_eq {b f1 f2 : BitVec 4} (ho : op1 h = 0xD) (hc : op2 h = 0x0) (hb : r2 h = b) (hf1 : op1 l = f1)
    (hf2 : op2 l = f2) (hl : r2 l = 0x0) : fp32 (r1 h) b f1 (r1 l) f2 = .word h l := by
  rw [fp32, rr16_eq ho rfl hc hb, rr16_eq hf1 rfl hf2 hl]

/-- The MSB of a halfword is that of its major opcode. -/
theorem msb_of_op1 {o : BitVec 4} (ho : op1 h = o) : h.msb = o.msb := by
  rw [← ho, ← msb_rr16 (op1 h) (r1 h) (op2 h) (r2 h), rr16_fields]

/-- A field is the value that the decoder's table compares it with. -/
theorem field_eq {w n : Nat} {x : BitVec w} (hx : x.toNat = n) : x = BitVec.ofNat w n := by
  rw [← hx, BitVec.ofNat_toNat, BitVec.setWidth_eq]

/-- A field whose top bit is 0 is a bit position. -/
theorem bitpos_field {r : BitVec 4} (hr : (!r.msb) = true) : 0#1 ++ bitposOf r = r := by
  revert r
  decide

theorem append_eq_zero : ∀ {a b : BitVec 4}, a ++ b = 0#8 → a = 0 ∧ b = 0 := by decide

theorem fields_of_low8 (hl : low8 h = 0) : op2 h = 0 ∧ r2 h = 0 := by
  rw [← rr16_fields h, low8_rr16] at hl
  exact append_eq_zero hl

/-! ### Decoding an encoding -/

/-- The decoder's table of 16-bit or of 32-bit instructions, as the length of the bits selects it. -/
def decodeCode : Code → Option Instr
  | .half h => decode16 h
  | .word h l => decode32 h l

/-- The decoder's table has every instruction but 0xF000 at its encoding (30_encoding.md R115 to R117). -/
theorem decodeCode_encode (hi : i ≠ .nopPar) : decodeCode (encode i) = some i := by
  cases i with
  | subv | addv | subx | addx | sub | add | neg | not | cmp | and | cmpu | xor | btst | or =>
    simp [decodeCode, encode, decode16, decode16Op0, onlyIf]
  | srl | mv | sra | mvfc | sll | mvtc | mul | jl | rte | jmp | trap =>
    simp [decodeCode, encode, decode16, decode16Op1, onlyIf]
  | stb | ldb | sth | ldub | sthInc | ldh | st | lduh | unlock | ld | stPreInc | lock | stPreDec | ldInc =>
    simp [decodeCode, encode, decode16, decode16Op2]
  | mulhi | machi | mullo | maclo | mulwhi | macwhi | mulwlo | macwlo =>
    simp [decodeCode, encode, decode16, decode16Op3]
  | addi | ldi8 => simp [decodeCode, encode, decode16]
  | srli | mvtachi | srai | mvtaclo | slli | mvfachi | rach | mvfaclo | rac | mvfacmi =>
    simp [decodeCode, encode, decode16, decode16Op5, onlyIf]
  | nop | bc8 | setpsw | bnc8 | clrpsw | bl8 | bra8 => simp [decodeCode, encode, decode16, decode16Op7, onlyIf]
  | cmpi | cmpui | addv3 | add3 | and3 | xor3 | or3 =>
    simp [decodeCode, encode, rri32, decode32, decode32Op8, onlyIf]
  | div | divu | rem | remu | srl3 | sra3 | sll3 | ldi16 =>
    simp [decodeCode, encode, rri32, decode32, decode32Op9, onlyIf]
  | stbDisp | sthDisp | stDisp | bset | bclr | ldbDisp | ldubDisp | ldhDisp | lduhDisp | ldDisp =>
    simp [decodeCode, encode, rri32, decode32, decode32OpA, onlyIf]
  | beq | bne | beqz | bnez | bltz | bgez | blez | bgtz =>
    simp [decodeCode, encode, rri32, decode32, decode32OpB, onlyIf]
  | seth => simp [decodeCode, encode, rri32, decode32, decode32OpD, onlyIf]
  | fadd | fsub | fcmp | fcmpe | fmul | fdiv | fmadd | fmsub | itof | utof | ftoi | ftos =>
    simp [decodeCode, encode, fp32, decode32, decode32OpD, decode32Fpu, onlyIf]
  | bc24 | bnc24 | bl24 | bra24 => simp [decodeCode, encode, i24, decode32, decode32OpF]
  | ld24 => simp [decodeCode, encode, i24, decode32]
  | nopPar => exact absurd rfl hi

/-! ### The encoding of what was decoded -/

theorem encode_of_decode16Op0 (ho : op1 h = 0x0) (hd : decode16Op0 h = some i) : encode i = .half h := by
  unfold decode16Op0 at hd
  split at hd
  case h_14 hop2 =>
    obtain ⟨hmsb, rfl⟩ := onlyIf_eq_some.mp hd
    exact congrArg Code.half (rr16_eq ho (bitpos_field hmsb).symm (field_eq hop2) rfl)
  case h_15 => cases hd
  all_goals
    next hop2 =>
      cases hd
      exact congrArg Code.half (rr16_eq ho rfl (field_eq hop2) rfl)

theorem encode_of_decode16Op1 (ho : op1 h = 0x1) (hd : decode16Op1 h = some i) : encode i = .half h := by
  unfold decode16Op1 at hd
  split at hd
  case h_8 hop2 =>
    split at hd
    case h_3 => cases hd
    all_goals
      next hr1 =>
        cases hd
        exact congrArg Code.half (rr16_eq ho (field_eq hr1) (field_eq hop2) rfl)
  case h_9 hop2 =>
    obtain ⟨hfixed, rfl⟩ := onlyIf_eq_some.mp hd
    simp only [Bool.and_eq_true, decide_eq_true_eq] at hfixed
    exact congrArg Code.half (rr16_eq ho hfixed.1 (field_eq hop2) hfixed.2)
  case h_10 hop2 =>
    obtain ⟨hr1, rfl⟩ := onlyIf_eq_some.mp hd
    exact congrArg Code.half (rr16_eq ho (of_decide_eq_true hr1) (field_eq hop2) rfl)
  case h_11 => cases hd
  all_goals
    next hop2 =>
      cases hd
      exact congrArg Code.half (rr16_eq ho rfl (field_eq hop2) rfl)

theorem encode_of_decode16Op2 (ho : op1 h = 0x2) (hd : decode16Op2 h = some i) : encode i = .half h := by
  unfold decode16Op2 at hd
  split at hd
  case h_15 => cases hd
  all_goals
    next hop2 =>
      cases hd
      exact congrArg Code.half (rr16_eq ho rfl (field_eq hop2) rfl)

theorem encode_of_decode16Op3 (ho : op1 h = 0x3) (hd : decode16Op3 h = some i) : encode i = .half h := by
  unfold decode16Op3 at hd
  split at hd
  case h_9 => cases hd
  all_goals
    next hop2 =>
      cases hd
      exact congrArg Code.half (rr16_eq ho rfl (field_eq hop2) rfl)

theorem encode_of_decode16Op5 (ho : op1 h = 0x5) (hd : decode16Op5 h = some i) : encode i = .half h := by
  unfold decode16Op5 at hd
  split at hd
  case h_4 =>
    split at hd
    case h_2 hop2 | h_3 hop2 =>
      obtain ⟨hfixed, rfl⟩ := onlyIf_eq_some.mp hd
      simp only [Bool.and_eq_true, decide_eq_true_eq] at hfixed
      exact congrArg Code.half (rr16_eq ho hfixed.1 (field_eq hop2) hfixed.2)
    case h_5 => cases hd
    all_goals
      next hop2 =>
        split at hd <;> cases hd
        all_goals
          next hr2 =>
            exact congrArg Code.half (rr16_eq ho rfl (field_eq hop2) (field_eq hr2))
  all_goals
    next hop3 =>
      cases hd
      exact congrArg Code.half (ri5_eq ho rfl (field_eq hop3) rfl)

theorem encode_of_decode16Op7 (ho : op1 h = 0x7) (hd : decode16Op7 h = some i) : encode i = .half h := by
  unfold decode16Op7 at hd
  split at hd
  case h_1 hr1 =>
    obtain ⟨hlow8, rfl⟩ := onlyIf_eq_some.mp hd
    exact congrArg Code.half (ri8_eq ho (field_eq hr1) (of_decide_eq_true hlow8))
  case h_8 => cases hd
  all_goals
    next hr1 =>
      cases hd
      exact congrArg Code.half (ri8_eq ho (field_eq hr1) rfl)

/-- A 16-bit pattern that the decoder accepts has its MSB clear, and it is the encoding of what the decoder answers. -/
theorem encode_of_decode16 (hd : decode16 h = some i) : h.msb = false ∧ encode i = .half h := by
  unfold decode16 at hd
  split at hd
  case h_1 hop1 => exact ⟨msb_of_op1 (field_eq hop1), encode_of_decode16Op0 (field_eq hop1) hd⟩
  case h_2 hop1 => exact ⟨msb_of_op1 (field_eq hop1), encode_of_decode16Op1 (field_eq hop1) hd⟩
  case h_3 hop1 => exact ⟨msb_of_op1 (field_eq hop1), encode_of_decode16Op2 (field_eq hop1) hd⟩
  case h_4 hop1 => exact ⟨msb_of_op1 (field_eq hop1), encode_of_decode16Op3 (field_eq hop1) hd⟩
  case h_5 hop1 | h_7 hop1 =>
    cases hd
    exact ⟨msb_of_op1 (field_eq hop1), congrArg Code.half (ri8_eq (field_eq hop1) rfl rfl)⟩
  case h_6 hop1 => exact ⟨msb_of_op1 (field_eq hop1), encode_of_decode16Op5 (field_eq hop1) hd⟩
  case h_8 hop1 => exact ⟨msb_of_op1 (field_eq hop1), encode_of_decode16Op7 (field_eq hop1) hd⟩
  case h_9 => cases hd

theorem encode_of_decode32Op8 (ho : op1 h = 0x8) (hd : decode32Op8 h l = some i) : encode i = .word h l := by
  unfold decode32Op8 at hd
  split at hd
  case h_1 hop2 | h_2 hop2 =>
    obtain ⟨hr1, rfl⟩ := onlyIf_eq_some.mp hd
    exact rri32_eq ho (of_decide_eq_true hr1) (field_eq hop2) rfl
  case h_8 => cases hd
  all_goals
    next hop2 =>
      cases hd
      exact rri32_eq ho rfl (field_eq hop2) rfl

theorem encode_of_decode32Op9 (ho : op1 h = 0x9) (hd : decode32Op9 h l = some i) : encode i = .word h l := by
  unfold decode32Op9 at hd
  split at hd
  case h_1 hop2 | h_2 hop2 | h_3 hop2 | h_4 hop2 =>
    obtain ⟨hl, rfl⟩ := onlyIf_eq_some.mp hd
    rw [of_decide_eq_true hl]
    exact rri32_eq ho rfl (field_eq hop2) rfl
  case h_8 hop2 =>
    obtain ⟨hr2, rfl⟩ := onlyIf_eq_some.mp hd
    exact rri32_eq ho rfl (field_eq hop2) (of_decide_eq_true hr2)
  case h_9 => cases hd
  all_goals
    next hop2 =>
      cases hd
      exact rri32_eq ho rfl (field_eq hop2) rfl

theorem encode_of_decode32OpA (ho : op1 h = 0xA) (hd : decode32OpA h l = some i) : encode i = .word h l := by
  unfold decode32OpA at hd
  split at hd
  case h_4 hop2 | h_5 hop2 =>
    obtain ⟨hmsb, rfl⟩ := onlyIf_eq_some.mp hd
    exact rri32_eq ho (bitpos_field hmsb).symm (field_eq hop2) rfl
  case h_11 => cases hd
  all_goals
    next hop2 =>
      cases hd
      exact rri32_eq ho rfl (field_eq hop2) rfl

theorem encode_of_decode32OpB (ho : op1 h = 0xB) (hd : decode32OpB h l = some i) : encode i = .word h l := by
  unfold decode32OpB at hd
  split at hd
  case h_1 hop2 | h_2 hop2 =>
    cases hd
    exact rri32_eq ho rfl (field_eq hop2) rfl
  case h_9 => cases hd
  all_goals
    next hop2 =>
      obtain ⟨hr1, rfl⟩ := onlyIf_eq_some.mp hd
      exact rri32_eq ho (of_decide_eq_true hr1) (field_eq hop2) rfl

theorem encode_of_decode32Fpu (ho : op1 h = 0xD) (hop : op2 h = 0x0) (hd : decode32Fpu h l = some i) :
    encode i = .word h l := by
  unfold decode32Fpu at hd
  split at hd
  case h_1 hf1 =>
    split at hd
    case h_5 => cases hd
    all_goals
      next hf2 =>
        obtain ⟨hl, rfl⟩ := onlyIf_eq_some.mp hd
        exact fp32_eq ho hop rfl (field_eq hf1) (field_eq hf2) (of_decide_eq_true hl)
  case h_2 hf1 | h_3 hf1 =>
    obtain ⟨hlow8, rfl⟩ := onlyIf_eq_some.mp hd
    have ⟨hf2, hl⟩ := fields_of_low8 (of_decide_eq_true hlow8)
    exact fp32_eq ho hop rfl (field_eq hf1) hf2 hl
  case h_4 hf1 =>
    split at hd
    case h_3 => cases hd
    all_goals
      next hf2 =>
        obtain ⟨hl, rfl⟩ := onlyIf_eq_some.mp hd
        exact fp32_eq ho hop rfl (field_eq hf1) (field_eq hf2) (of_decide_eq_true hl)
  case h_5 hf1 =>
    split at hd
    case h_5 => cases hd
    all_goals
      next hf2 =>
        obtain ⟨hfixed, rfl⟩ := onlyIf_eq_some.mp hd
        simp only [Bool.and_eq_true, decide_eq_true_eq] at hfixed
        exact fp32_eq ho hop hfixed.2 (field_eq hf1) (field_eq hf2) hfixed.1
  case h_6 => cases hd

theorem encode_of_decode32OpD (ho : op1 h = 0xD) (hd : decode32OpD h l = some i) : encode i = .word h l := by
  unfold decode32OpD at hd
  split at hd
  case h_1 hop2 => exact encode_of_decode32Fpu ho (field_eq hop2) hd
  case h_2 hop2 =>
    obtain ⟨hr2, rfl⟩ := onlyIf_eq_some.mp hd
    exact rri32_eq ho rfl (field_eq hop2) (of_decide_eq_true hr2)
  case h_3 => cases hd

theorem encode_of_decode32OpF (ho : op1 h = 0xF) (hd : decode32OpF h l = some i) : encode i = .word h l := by
  unfold decode32OpF at hd
  split at hd
  case h_5 => cases hd
  all_goals
    next hr1 =>
      cases hd
      exact i24_eq ho (field_eq hr1)

/-- A 32-bit pattern that the decoder accepts has its MSB set, and it is the encoding of what the decoder answers. -/
theorem encode_of_decode32 (hd : decode32 h l = some i) : h.msb = true ∧ encode i = .word h l := by
  unfold decode32 at hd
  split at hd
  case h_1 hop1 => exact ⟨msb_of_op1 (field_eq hop1), encode_of_decode32Op8 (field_eq hop1) hd⟩
  case h_2 hop1 => exact ⟨msb_of_op1 (field_eq hop1), encode_of_decode32Op9 (field_eq hop1) hd⟩
  case h_3 hop1 => exact ⟨msb_of_op1 (field_eq hop1), encode_of_decode32OpA (field_eq hop1) hd⟩
  case h_4 hop1 => exact ⟨msb_of_op1 (field_eq hop1), encode_of_decode32OpB (field_eq hop1) hd⟩
  case h_5 hop1 => exact ⟨msb_of_op1 (field_eq hop1), encode_of_decode32OpD (field_eq hop1) hd⟩
  case h_6 hop1 =>
    cases hd
    exact ⟨msb_of_op1 (field_eq hop1), i24_eq (field_eq hop1) rfl⟩
  case h_7 hop1 => exact ⟨msb_of_op1 (field_eq hop1), encode_of_decode32OpF (field_eq hop1) hd⟩
  case h_8 => cases hd

/-! ### The decode procedure -/

theorem decodeHigh_of_msb_set (hm : h.msb = true) : decodeHigh h l = orReject (decode32 h l) .unassigned32 := if_pos hm

theorem decodeHigh_of_msb_clear (hm : h.msb = false) : decodeHigh h l = orReject (decode16 h) .unassigned16 := by
  simp [decodeHigh, hm]

theorem decodeLow_of_msb_clear (hm : h.msb = false) : decodeLow h = orReject (decode16 h) .unassigned16 := by
  simp [decodeLow, hm]

theorem decodeLow_parallelNop : decodeLow 0xF000 = .instr .nopPar := rfl

theorem decodeLow_of_parallel (hm : h.msb = true) (hn : h ≠ 0xF000) : decodeLow h = .rejected .parallelNotNop :=
  (if_pos hm).trans (if_neg hn)

/-- The decoder accepts the bits at a word boundary by the row that their MSB selects (30_encoding.md R101). -/
theorem decodeHigh_eq_instr :
    decodeHigh h l = .instr i ↔ (h.msb = true ∧ decode32 h l = some i) ∨ (h.msb = false ∧ decode16 h = some i) := by
  cases hm : h.msb
  · simp [decodeHigh_of_msb_clear hm, orReject_eq_instr]
  · simp [decodeHigh_of_msb_set hm, orReject_eq_instr]

/-- The decoder accepts an instruction B as NOP with the parallel flag or by its row (30_encoding.md R101 to R103). -/
theorem decodeLow_eq_instr :
    decodeLow h = .instr i ↔ (h = 0xF000 ∧ i = .nopPar) ∨ (h.msb = false ∧ decode16 h = some i) := by
  cases hm : h.msb
  · have hn : h ≠ 0xF000 := by rintro rfl; cases hm
    simp only [decodeLow_of_msb_clear hm, orReject_eq_instr, hn, false_and, true_and, false_or]
  · by_cases hn : h = 0xF000
    · rw [hn, decodeLow_parallelNop, DecodeResult.instr.injEq, eq_comm]
      simp only [true_and, Bool.true_eq_false, false_and, or_false]
    · simp only [decodeLow_of_parallel hm hn, hn, reduceCtorEq, false_and, Bool.true_eq_false, or_false]

/-- Settles O1: the decoder's table has the instruction at its encoding (`decodeCode_encode`), and what a table accepts has the MSB
that selects the table. -/
theorem decodingAnEncodedInstructionGivesIt : Obligations.DecodingAnEncodedInstructionGivesIt := by
  intro i _
  by_cases hi : i = .nopPar
  · rw [hi]
    exact ⟨absurd rfl, decodeLow_parallelNop⟩
  have hrow := decodeCode_encode hi
  split
  · next h he =>
    rw [he] at hrow
    have hmsb := (encode_of_decode16 hrow).1
    exact ⟨fun _ l => decodeHigh_eq_instr.mpr (.inr ⟨hmsb, hrow⟩), decodeLow_eq_instr.mpr (.inr ⟨hmsb, hrow⟩)⟩
  · next h l he =>
    rw [he] at hrow
    exact decodeHigh_eq_instr.mpr (.inl ⟨(encode_of_decode32 hrow).1, hrow⟩)

/-- Settles O2: each table of the decoder answers the instruction whose encoding it was given. -/
theorem acceptedBitsAreTheEncoding : Obligations.AcceptedBitsAreTheEncoding := by
  refine ⟨fun h l i hd => ?_, fun h i hd => ?_⟩
  · obtain ⟨-, hrow⟩ | ⟨-, hrow⟩ := decodeHigh_eq_instr.mp hd
    · exact .inr (encode_of_decode32 hrow).2
    · exact .inl (encode_of_decode16 hrow).2
  · obtain ⟨rfl, rfl⟩ | ⟨-, hrow⟩ := decodeLow_eq_instr.mp hd
    · rfl
    · exact (encode_of_decode16 hrow).2

/-- Bits at a word boundary that are no instruction's encoding are rejected by the name that their MSB selects. -/
theorem decodeHigh_of_no_encoding (hhalf : ∀ i : Instr, encode i = .half h → i = .nopPar)
    (hword : ∀ i : Instr, encode i ≠ .word h l) :
    decodeHigh h l = .rejected (if h.msb = true then .unassigned32 else .unassigned16) := by
  cases hm : h.msb
  · have hnone : decode16 h = none := Option.eq_none_iff_forall_ne_some.mpr fun i hrow => by
      have he := (encode_of_decode16 hrow).2
      rw [hhalf i he] at he
      cases he
      cases hm
    simp [decodeHigh_of_msb_clear hm, hnone, orReject]
  · have hnone : decode32 h l = none :=
      Option.eq_none_iff_forall_ne_some.mpr fun i hrow => hword i (encode_of_decode32 hrow).2
    simp [decodeHigh_of_msb_set hm, hnone, orReject]

/-- An instruction B that is no instruction's encoding is rejected by the name that its MSB selects. -/
theorem decodeLow_of_no_encoding (hhalf : ∀ i : Instr, encode i ≠ .half h) :
    decodeLow h = .rejected (if h.msb = true then .parallelNotNop else .unassigned16) := by
  cases hm : h.msb
  · have hnone : decode16 h = none :=
      Option.eq_none_iff_forall_ne_some.mpr fun i hrow => hhalf i (encode_of_decode16 hrow).2
    simp [decodeLow_of_msb_clear hm, hnone, orReject]
  · have hn : h ≠ 0xF000 := fun hn => hhalf .nopPar (hn ▸ rfl)
    simp [decodeLow_of_parallel hm hn]

/-- The major opcode 1100 has no row (30_encoding.md R119). -/
theorem decodeHigh_of_op1_C (ho : op1 h = 0xC) : decodeHigh h l = .rejected .unassigned32 := by
  have hnone : decode32 h l = none := by simp [decode32, ho]
  rw [decodeHigh_of_msb_set (msb_of_op1 ho), hnone]
  rfl

end Sys2Proof

namespace Sys2Proof.Machine

variable {s t : State} {i : Instr}

/-! ### The step -/

theorem step_of_rejected {why : DecodeReject} (hreset : s.resetReq = false) (hint : s.interruptAccepted = false)
    (hpc : s.pc.getLsbD 0 = false) (hb : s.fetchBacked = true) (hd : s.decodeAt = .rejected why) :
    step s = .refused (refusalOf why) := by
  simp only [step, hreset, hint, hpc, hb, hd, Bool.not_true, Bool.false_eq_true, if_false]

theorem step_of_instr (hreset : s.resetReq = false) (hint : s.interruptAccepted = false)
    (hpc : s.pc.getLsbD 0 = false) (hb : s.fetchBacked = true) (hd : s.decodeAt = .instr i) :
    step s = tickResult (exec i s) := by
  simp only [step, hreset, hint, hpc, hb, hd, Bool.not_true, Bool.false_eq_true, if_false]

theorem decodeAt_of_aligned (ha : aligned4 s.pc = true) :
    s.decodeAt = decodeHigh (s.fetch16 s.pc) (s.fetch16 (s.pc + 2)) := if_pos ha

theorem decodeAt_of_not_aligned (ha : aligned4 s.pc = false) : s.decodeAt = decodeLow (s.fetch16 s.pc) := by
  simp [State.decodeAt, ha]

theorem aligned4_eq_lowBits (a : Word) : aligned4 a = decide (a.extractLsb' 0 2 = 0) := rfl

theorem even_of_aligned4 {a : Word} (ha : aligned4 a = true) : a.getLsbD 0 = false :=
  even_of_lowBits (of_decide_eq_true ha)

/-- A low-order halfword lies at an even address (30_encoding.md R100). -/
theorem even_of_atLowHalf (h : s.atLowHalf) : s.pc.getLsbD 0 = false := by
  simpa using congrArg (·.getLsbD 0) h

theorem not_aligned4_of_atLowHalf (h : s.atLowHalf) : aligned4 s.pc = false := by
  rw [aligned4_eq_lowBits, show s.pc.extractLsb' 0 2 = 2 from h]
  rfl

/-- A number that names no control register reads and writes none (10_state.md R24). -/
theorem readCR_writeCR_of_not_named {cr : CReg} (h : CReg.named cr = false) (v : Word) :
    s.readCR cr = none ∧ s.writeCR cr v = none := by
  simp only [CReg.named, Bool.or_eq_false_iff, decide_eq_false_iff_not] at h
  obtain ⟨⟨⟨⟨⟨h0, h1⟩, h2⟩, h3⟩, h6⟩, h7⟩ := h
  simp only [State.readCR, State.writeCR, h0, h1, h2, h3, h6, h7, if_false, and_self]

/-- Settles O4: a rejection is the step's refusal (`step_of_rejected`), and what is no encoding is rejected, because whatever the
decoder accepts is one. -/
theorem refusedEncodingsAreNamed : Obligations.RefusedEncodingsAreNamed := by
  refine ⟨fun s hreset hint hpc hb => ?_, fun h l => decodeHigh_of_no_encoding, fun h => decodeLow_of_no_encoding,
    fun s hreset hint hb hlow hm hn => ?_, fun s hreset hint hb ha ho => ?_, fun s r cr hcr => ?_⟩
  · exact ⟨step_of_rejected hreset hint hpc hb, step_of_rejected hreset hint hpc hb, step_of_rejected hreset hint hpc hb⟩
  · refine step_of_rejected (why := .parallelNotNop) hreset hint (even_of_atLowHalf hlow) hb ?_
    rw [decodeAt_of_not_aligned (not_aligned4_of_atLowHalf hlow), decodeLow_of_parallel hm hn]
  · refine step_of_rejected (why := .unassigned32) hreset hint (even_of_aligned4 ha) hb ?_
    rw [decodeAt_of_aligned ha, decodeHigh_of_op1_C ho]
  · obtain ⟨hread, hwrite⟩ := readCR_writeCR_of_not_named (s := s) hcr (s.reg r)
    exact ⟨by simp [exec, execMvfc, hread], by simp [exec, execMvtc, hwrite]⟩

/-! ### The fetch -/

theorem ramAt_mono {a : Word} {m n : Nat} (hmn : m ≤ n) (h : s.ramAt a n = true) : s.ramAt a m = true :=
  allBacked_iff.mpr fun j hj => allBacked_iff.mp h j (by omega)

/-- Plain memory at the word, or at the low-order halfword, of the program counter backs the fetch. -/
theorem fetchBacked_of_ramAt (h : s.ramAt s.pc (if s.pc.extractLsb' 0 2 = 0 then 4 else 2) = true) :
    s.fetchBacked = true := by
  refine backed_of_ramAt (ramAt_mono ?_ h)
  by_cases ha : s.pc.extractLsb' 0 2 = 0
  · rw [if_pos ha]
    split <;> omega
  · rw [if_neg ha, aligned4_eq_lowBits, decide_eq_false ha]
    exact le_rfl

/-- With an empty instruction queue a fetch from plain memory reads two bytes of it, the more significant one first. -/
theorem fetch16_of_ramAt {a : Word} (hq : s.queue = []) (h : s.ramAt a 2 = true) :
    s.fetch16 a = byteAt s a ++ byteAt s (a + 1) := by
  rw [State.fetch16, fetch8_of_empty_queue hq a (by simpa using backing_of_ramAt h 0 (by omega)),
    fetch8_of_empty_queue hq (a + 1) (backing_of_ramAt h 1 (by omega))]

theorem ramAt_add {a : Word} {k m n : Nat} (hkm : k + m ≤ n) (h : s.ramAt a n = true) :
    s.ramAt (a + BitVec.ofNat 32 k) m = true :=
  allBacked_iff.mpr fun j hj => by
    simpa [BitVec.add_assoc, BitVec.ofNat_add] using allBacked_iff.mp h (k + j) (by omega)

/-- Settles O5: the step is the decoded instruction's (`step_of_instr`), and a fetch from plain memory reads its bytes. -/
theorem stepRunsTheDecodedInstruction : Obligations.StepRunsTheDecodedInstruction := by
  refine fun s => ⟨fun i hreset hint hpc hb hd => ?_, fetchBacked_of_ramAt, fun hq hr => ?_⟩
  · rw [step_of_instr hreset hint hpc hb hd]
    exact ⟨fun t ht => by rw [ht]; rfl, fun e he => by rw [he]; rfl⟩
  · split at hr
    · next ha =>
      rw [if_pos ha, decodeAt_of_aligned (decide_eq_true ha), fetch16_of_ramAt hq (ramAt_mono (by omega) hr),
        fetch16_of_ramAt (a := s.pc + 2) hq (ramAt_add (k := 2) (by omega) hr)]
    · next ha => rw [if_neg ha, decodeAt_of_not_aligned (decide_eq_false ha), fetch16_of_ramAt hq hr]

/-! ### The next program counter -/

/-- How many bytes an instruction takes (30_encoding.md R104). -/
def codeLength : Code → Word
  | .half _ => 2
  | .word _ _ => 4

/-- From `s` to `t` the program counter went `len` bytes further, or to a word boundary with the instruction queue emptied. -/
def PcMoves (len : Word) (s t : State) : Prop := t.pc = s.pc + len ∨ (t.pc.extractLsb' 0 2 = 0 ∧ t.queue = [])

section
variable {u : State} {len : Word}

theorem pcMoves_advance (hu : u.pc = s.pc) : PcMoves len s (u.advance len) := .inl (by rw [advance_pc, hu])

theorem pcMoves_jump {target : Word} (h : target.extractLsb' 0 2 = 0) : PcMoves len s (u.jump target) := .inr ⟨h, rfl⟩

theorem pcMoves_eitEntry (e : EitEvent) : PcMoves len s (u.eitEntry e) := .inr ⟨vector_lowBits e, rfl⟩

theorem pcMoves_rteReturn : PcMoves len s u.rteReturn := .inr ⟨wordAlign_lowBits u.bpc, rfl⟩

theorem pcMoves_writeBack {d : Reg} {v : Word} (hu : u.pc = s.pc) : Yields (PcMoves len s) (u.writeBack d v len) :=
  pcMoves_advance (by rw [setReg_pc, hu])

theorem pcMoves_writeBackC {d : Reg} {v : Word} {c : Bool} : Yields (PcMoves len s) (s.writeBackC d v c len) :=
  pcMoves_advance (by rw [setC_pc, setReg_pc])

theorem pcMoves_branchIf {taken : Bool} {n : Nat} {pcdisp : BitVec n} :
    Yields (PcMoves len s) (s.branchIf taken (s.relTarget pcdisp) len) :=
  yields_ite (pcMoves_jump (target_lowBits ..)) (pcMoves_advance rfl)

theorem pcMoves_access {ok : Bool} {a : Word} {n : Nat} {done : Result} (h : Yields (PcMoves len s) done) :
    Yields (PcMoves len s) (s.access ok a n done) :=
  yields_ite (yields_ite h trivial) (pcMoves_eitEntry .ae)

theorem pcMoves_loadTo {ok : Bool} {a : Word} {n : Nat} {d : Reg} {v : Word} :
    Yields (PcMoves len s) (s.loadTo ok a n d v len) :=
  pcMoves_access (pcMoves_writeBack (afterLoad_pc ..))

theorem pcMoves_storeAs {ok : Bool} {a : Word} {n : Nat} (hu : u.pc = s.pc) :
    Yields (PcMoves len s) (s.storeAs ok a n u len) :=
  pcMoves_access (pcMoves_advance hu)

theorem pcMoves_modifyAs {a : Word} {f : Byte → Byte} : Yields (PcMoves 4 s) (s.modifyAs a f) :=
  pcMoves_access (pcMoves_advance (modifyByte_pc ..))

theorem pcMoves_fpEnd {d : Reg} {o : FpOutcome} : Yields (PcMoves 4 s) (s.fpEnd d o) :=
  yields_ite (pcMoves_eitEntry .fpe) (pcMoves_writeBack rfl)

theorem pcMoves_mvfc {d : Reg} {cr : CReg} : Yields (PcMoves 2 s) (execMvfc d cr s) := by
  unfold execMvfc
  split
  · exact pcMoves_writeBack rfl
  · trivial

theorem writeCR_pc {cr : CReg} {v : Word} (h : s.writeCR cr v = some t) : t.pc = s.pc := by
  obtain ⟨-, rfl⟩ | ⟨-, rfl⟩ | ⟨-, rfl⟩ | ⟨-, rfl⟩ | ⟨-, rfl⟩ | ⟨-, rfl⟩ := writeCR_cases h <;> rfl

theorem pcMoves_mvtc {r : Reg} {cr : CReg} : Yields (PcMoves 2 s) (execMvtc r cr s) := by
  unfold execMvtc
  split
  · next h => exact pcMoves_advance (writeCR_pc h)
  · trivial

end

/-- An instruction goes on by the length of its own encoding, or to a word boundary with an empty queue. -/
theorem pcMoves_exec (i : Instr) (s : State) : Yields (PcMoves (codeLength (encode i)) s) (exec i s) := by
  cases i with
  | sub | add | neg | not | and | xor | or | srl | mv | sra | sll | mul | addi | ldi8 | srli | srai | slli
  | mvfachi | mvfaclo | mvfacmi | add3 | and3 | xor3 | or3 | srl3 | sra3 | sll3 | ldi16 | seth | ld24 =>
    exact pcMoves_writeBack rfl
  | subv | addv | subx | addx | addv3 => exact pcMoves_writeBackC
  | cmp | cmpu | cmpi | cmpui | btst | setpsw | clrpsw | nop | nopPar
  | mulhi | mullo | mulwhi | mulwlo | machi | maclo | macwhi | macwlo | rac | rach | mvtachi | mvtaclo =>
    exact pcMoves_advance rfl
  | divu | remu => exact yields_ite (pcMoves_advance rfl) (pcMoves_writeBack rfl)
  | div | rem =>
    exact yields_ite (pcMoves_advance rfl) (yields_ite (pcMoves_writeBack rfl) (pcMoves_writeBack rfl))
  | mvfc => exact pcMoves_mvfc
  | mvtc => exact pcMoves_mvtc
  | bc8 | bnc8 | bc24 | bnc24 | beq | bne | beqz | bnez | bltz | bgez | blez | bgtz => exact pcMoves_branchIf
  | bra8 | bra24 | bl8 | bl24 => exact pcMoves_jump (target_lowBits ..)
  | jmp | jl => exact pcMoves_jump (wordAlign_lowBits _)
  | trap n => exact pcMoves_eitEntry (.trap n)
  | rte => exact pcMoves_rteReturn
  | ld | ldh | lduh | ldDisp | ldhDisp | lduhDisp => exact pcMoves_loadTo
  | ldb | ldub | ldbDisp | ldubDisp => exact pcMoves_loadTo (ok := true)
  | ldInc => exact pcMoves_access (pcMoves_writeBack (by rw [setReg_pc, afterLoad_pc]))
  | lock => exact pcMoves_access (pcMoves_writeBack (afterLoad_pc ..))
  | stb | stbDisp => exact pcMoves_storeAs (ok := true) (store8_pc ..)
  | sth | sthDisp => exact pcMoves_storeAs (store16_pc ..)
  | st | stDisp => exact pcMoves_storeAs (store32_pc ..)
  | sthInc => exact pcMoves_storeAs (by rw [setReg_pc, store16_pc])
  | stPreInc | stPreDec => exact pcMoves_storeAs (by rw [store32_pc, setReg_pc])
  | unlock =>
    exact yields_ite (pcMoves_storeAs (store32_pc ..)) (yields_ite (pcMoves_advance rfl) (pcMoves_eitEntry .ae))
  | bset | bclr => exact pcMoves_modifyAs
  | fadd | fsub | fmul | fdiv | fmadd | fmsub | fcmp | fcmpe | itof | utof | ftoi | ftos => exact pcMoves_fpEnd

/-- Settles O9: each ending of an instruction moves the program counter so (`pcMoves_exec`). -/
theorem theNextPcIsSequentialOrWordAligned : Obligations.TheNextPcIsSequentialOrWordAligned := by
  intro i s t h
  have hmoves : PcMoves (codeLength (encode i)) s t := (pcMoves_exec i s).next h
  cases hc : encode i <;> rw [hc] at hmoves <;> exact hmoves

end Sys2Proof.Machine
end

section
/-! PROOFS. Transfers (41_transfer.md): LD24, LDI, MV and SETH, and MVFC and MVTC over the control registers.

The encodings all follow from `decodeCode_encode`: what the manual spells out is the encoder's format. The images of PSW and FPSR
are put together from single bits, so a bit of an image, or an image under a mask, is read off bit by bit. -/

namespace Sys2Proof.Machine

variable {s t : State} {i : Instr}

/-! ### Encodings as the manual prints them -/

/-- A 16-bit instruction is decoded from its encoding, as an instruction A and as an instruction B. -/
theorem decode_of_encode_half {h : Half} (he : encode i = .half h) (hi : i ≠ .nopPar) :
    (∀ l : Half, decodeHigh h l = .instr i) ∧ decodeLow h = .instr i := by
  have hrow := decodeCode_encode hi
  rw [he] at hrow
  have hmsb := (encode_of_decode16 hrow).1
  exact ⟨fun l => decodeHigh_eq_instr.mpr (.inr ⟨hmsb, hrow⟩), decodeLow_eq_instr.mpr (.inr ⟨hmsb, hrow⟩)⟩

/-- A 32-bit instruction is decoded from its encoding. -/
theorem decode_of_encode_word {h l : Half} (he : encode i = .word h l) : decodeHigh h l = .instr i := by
  have hi : i ≠ .nopPar := by
    rintro rfl
    cases he
  have hrow := decodeCode_encode hi
  rw [he] at hrow
  exact decodeHigh_eq_instr.mpr (.inl ⟨(encode_of_decode32 hrow).1, hrow⟩)

theorem spelled16_of_encode {b0 b4 b8 b12 : BitVec 4} (he : encode i = .half (rr16 b0 b4 b8 b12))
    (hi : i ≠ .nopPar := by nofun) : Spelled16 b0 b4 b8 b12 i :=
  decode_of_encode_half he hi

theorem spelled8_of_encode {b0 b4 : BitVec 4} {x : BitVec 8} (he : encode i = .half (ri8 b0 b4 x))
    (hi : i ≠ .nopPar := by nofun) : Spelled8 b0 b4 x i :=
  decode_of_encode_half he hi

theorem spelled32_of_encode {b0 b4 b8 b12 : BitVec 4} {x : Half} (he : encode i = rri32 b0 b4 b8 b12 x) :
    Spelled32 b0 b4 b8 b12 x i :=
  decode_of_encode_word he

theorem spelled24_of_encode {b0 b4 : BitVec 4} {x : BitVec 24} (he : encode i = i24 b0 b4 x) : Spelled24 b0 b4 x i :=
  decode_of_encode_word he

/-! ### Immediates (30_encoding.md R111) -/

/-- A zero-extended immediate is its unsigned value. -/
theorem zext_eq_ofNat {n : Nat} (x : BitVec n) : zext x = BitVec.ofNat 32 x.toNat := (BitVec.ofNat_toNat 32 x).symm

/-- A sign-extended immediate is its signed value. -/
theorem sext_eq_ofInt {n : Nat} (x : BitVec n) : sext x = BitVec.ofInt 32 x.toInt := rfl

/-- SETH's immediate is a multiple of 2^16. -/
theorem highHalf_eq_ofNat (x : BitVec 16) : highHalf x = BitVec.ofNat 32 (x.toNat * 2 ^ 16) := by
  apply BitVec.eq_of_toNat_eq
  have hx := x.isLt
  simp only [highHalf, BitVec.toNat_append, BitVec.toNat_ofNat, Nat.shiftLeft_eq, Nat.zero_mod, Nat.or_zero]
  omega

/-- Settles O18: each of the instructions ends in the write of its value. -/
theorem transferInstructionsWriteTheirValue : Obligations.TransferInstructionsWriteTheirValue := by
  refine ⟨fun d x => spelled24_of_encode rfl, fun d x => spelled8_of_encode rfl, fun d x => spelled32_of_encode rfl,
    fun d r => spelled16_of_encode rfl, fun d x => spelled32_of_encode rfl,
    fun s d r => ⟨fun x => ?_, fun x => ?_, fun x => ?_, writesReg_of_writeBack [] rfl, fun x => ?_⟩⟩
  · rw [← zext_eq_ofNat]
    exact writesReg_of_writeBack [] rfl
  · rw [← sext_eq_ofInt]
    exact writesReg_of_writeBack [] rfl
  · rw [← sext_eq_ofInt]
    exact writesReg_of_writeBack [] rfl
  · rw [← highHalf_eq_ofNat]
    exact writesReg_of_writeBack [] rfl

/-! ### The images of PSW and FPSR (10_state.md R30, R42) -/

@[simp] theorem bitAt_false (n : Nat) : bitAt false n = 0 := rfl

/-- A bit in its place under a mask is the bit where the mask has a 1. -/
theorem bitAt_and (b : Bool) {n : Nat} (hn : n < 32) (mask : Word) : bitAt b n &&& mask = bitAt (b && mask.getLsbD n) n := by
  apply BitVec.eq_of_getLsbD_eq
  intro k _
  rw [BitVec.getLsbD_and, getLsbD_bitAt _ hn, getLsbD_bitAt _ hn]
  by_cases hk : k = n
  · rw [hk]
    simp
  · simp [hk]

/-- RM stands in the FPSR's image as its two bits. -/
theorem roundBits_zeroExtend (m : RoundMode) :
    m.bits.zeroExtend 32 = bitAt (m.bits.getLsbD 1) 1 ||| bitAt (m.bits.getLsbD 0) 0 := by
  cases m <;> rfl

theorem roundBits_ofBits (hi lo : Bool) :
    (RoundMode.ofBits hi lo).bits.getLsbD 1 = hi ∧ (RoundMode.ofBits hi lo).bits.getLsbD 0 = lo := by
  cases hi <;> cases lo <;> exact ⟨rfl, rfl⟩

/-- Each bit of the PSW's image: the six bits in their places, every other 0. -/
theorem getLsbD_pswImage (p : Psw) (k : Nat) :
    p.image.getLsbD k =
      (p.bsm && decide (k = 15) || p.bie && decide (k = 14) || p.bc && decide (k = 8) || p.sm && decide (k = 7) ||
        p.ie && decide (k = 6) || p.c && decide (k = 0)) := by
  simp only [Psw.image, BitVec.getLsbD_or, getLsbD_bitAt, Nat.reduceLT]

/-- The bits of the PSW without a function read 0 (decision D14). -/
theorem pswImage_and_unused (p : Psw) : p.image &&& 0xFFFF3E3E = 0 := by
  simp [Psw.image, BitVec.and_or_distrib_right, bitAt_and]

/-- Each bit of the FPSR's image: the bits in their places, every other 0. -/
theorem getLsbD_fpsrImage (f : Fpsr) (k : Nat) :
    f.image.getLsbD k =
      (f.fs && decide (k = 31) || f.fx && decide (k = 30) || f.fu && decide (k = 29) || f.fz && decide (k = 28) ||
        f.fo && decide (k = 27) || f.fv && decide (k = 26) || f.ex && decide (k = 14) || f.eu && decide (k = 13) ||
        f.ez && decide (k = 12) || f.eo && decide (k = 11) || f.ev && decide (k = 10) || f.dn && decide (k = 8) ||
        f.cause.ce && decide (k = 7) || f.cause.cx && decide (k = 6) || f.cause.cu && decide (k = 5) ||
        f.cause.cz && decide (k = 4) || f.cause.co && decide (k = 3) || f.cause.cv && decide (k = 2) ||
        (f.rm.bits.getLsbD 1 && decide (k = 1) || f.rm.bits.getLsbD 0 && decide (k = 0))) := by
  simp only [Fpsr.image, roundBits_zeroExtend, BitVec.getLsbD_or, getLsbD_bitAt, Nat.reduceLT]

/-- RM reads in the two low-order bits. -/
theorem fpsrImage_low2 (f : Fpsr) : f.image.extractLsb' 0 2 = f.rm.bits := by
  apply BitVec.eq_of_getLsbD_eq
  intro k hk
  rw [BitVec.getLsbD_extractLsb', Nat.zero_add, getLsbD_fpsrImage]
  obtain rfl | rfl : k = 0 ∨ k = 1 := by omega
  all_goals simp

/-- The bits of the FPSR without a function read 0 (decision D14). -/
theorem fpsrImage_and_unused (f : Fpsr) : f.image &&& 0x03FF8200 = 0 := by
  simp [Fpsr.image, roundBits_zeroExtend, BitVec.and_or_distrib_right, bitAt_and]

/-- Settles O16: MVFC ends in the write of what `State.readCR` reads; the two images are read off bit by bit. -/
theorem mvfcReadsEachControlRegister : Obligations.MvfcReadsEachControlRegister := by
  refine ⟨fun d cr => spelled16_of_encode rfl, fun s d => ⟨⟨s.psw.image, writesReg_of_writeBack [] rfl, ?_⟩, ?_,
    writesReg_of_writeBack [] rfl, writesReg_of_writeBack [] rfl, writesReg_of_writeBack [] rfl,
    ⟨s.fpsr.image, writesReg_of_writeBack [] rfl, ?_, ?_⟩⟩⟩
  · simp only [getLsbD_pswImage, pswImage_and_unused]
    simp
  · exact cbrAndFsAreViewsOfOtherBits.1 s d
  · rw [getLsbD_fpsrImage_31]
    simp [Fpsr.fs, or_assoc]
  · simp only [getLsbD_fpsrImage, fpsrImage_low2, fpsrImage_and_unused]
    simp

/-! ### The write of a control register (10_state.md R30, R34, R42) -/

/-- MVTC ends in the write of its control register. -/
theorem completes_mvtc {P : State → Prop} {r : Reg} {cr : CReg} (h : s.writeCR cr (s.reg r) = some t)
    (ht : P (t.advance 2)) : Completes (.mvtc r cr) s P :=
  ⟨_, by simp [exec, execMvtc, h], ht⟩

/-- BPC takes every bit but bit 0 (10_state.md R34). -/
theorem getLsbD_and_evenMask (v : Word) {n : Nat} (hn : 0 < n) : (v &&& 0xFFFFFFFE).getLsbD n = v.getLsbD n := by
  have h : (0xFFFFFFFE : Word) = ~~~1#32 := rfl
  rw [BitVec.getLsbD_and, h, BitVec.getLsbD_not, BitVec.getLsbD_one]
  by_cases hw : n < 32
  · simp [hw, hn.ne']
  · simp [hw, BitVec.getLsbD_of_ge v n (by omega)]

/-- A word under the mask of one bit is that bit of the word in its place. -/
theorem and_bitAt (v : Word) (b : Bool) {n : Nat} (hn : n < 32) : v &&& bitAt b n = bitAt (b && v.getLsbD n) n := by
  rw [BitVec.and_comm, bitAt_and b hn]

/-- The causes stand in the FPSR's image from bit 7 to bit 2. -/
theorem fpsrImage_and_causes (f : Fpsr) :
    f.image &&& 0x000000FC = bitAt f.cause.ce 7 ||| bitAt f.cause.cx 6 ||| bitAt f.cause.cu 5 ||| bitAt f.cause.cz 4 |||
      bitAt f.cause.co 3 ||| bitAt f.cause.cv 2 := by
  simp [Fpsr.image, roundBits_zeroExtend, BitVec.and_or_distrib_right, bitAt_and]

/-- The image of a written FPSR, FS apart: the flags, the enables, DN and RM take the word written, and a cause stays 1 where a 1
is written (10_state.md R40 Note 3, R42). -/
theorem fpsrImage_write (f : Fpsr) (v : Word) :
    (f.write v).image &&& 0x7FFFFFFF = (v &&& 0x7C007D03) ||| (v &&& f.image &&& 0x000000FC) := by
  have taken : (0x7C007D03 : Word) = bitAt true 30 ||| bitAt true 29 ||| bitAt true 28 ||| bitAt true 27 ||| bitAt true 26 |||
      bitAt true 14 ||| bitAt true 13 ||| bitAt true 12 ||| bitAt true 11 ||| bitAt true 10 ||| bitAt true 8 |||
      (bitAt true 1 ||| bitAt true 0) := rfl
  rw [BitVec.and_assoc, fpsrImage_and_causes, taken]
  simp only [Fpsr.image, Fpsr.write, FpCauses.keep, roundBits_zeroExtend, roundBits_ofBits, BitVec.and_or_distrib_right,
    BitVec.and_or_distrib_left, bitAt_and, and_bitAt, Nat.reduceLT, BitVec.reduceGetLsb, Bool.and_false, Bool.and_true,
    Bool.true_and, bitAt_false]
  ac_rfl

/-- Settles O17: MVTC ends in `State.writeCR`, which writes each control register in its own way. -/
theorem mvtcWritesEachControlRegister : Obligations.MvtcWritesEachControlRegister := by
  refine ⟨fun r cr => spelled16_of_encode rfl, fun s r =>
    ⟨completes_mvtc rfl ⟨rfl, ⟨rfl, rfl, rfl⟩, ?_, rfl⟩, completes_mvtc rfl ⟨rfl, rfl, rfl, ?_, rfl⟩,
      completes_mvtc rfl ⟨rfl, rfl, rfl, ?_, rfl⟩,
      completes_mvtc rfl ⟨even_and_mask _, fun n hn => getLsbD_and_evenMask _ hn, ⟨rfl, rfl, rfl⟩, ?_, rfl⟩,
      completes_mvtc rfl ⟨fpsrImage_write _ _, ⟨rfl, rfl, rfl⟩, ?_, rfl⟩⟩⟩
  all_goals simp [KeepsBut]

end Sys2Proof.Machine
end

section
/-! PROOFS. Compare, arithmetic and logic instructions (42_compare_arith_logic.md), and the words that the instruction rules print
beside their assembly.

Every instruction ends in `State.writeBack`, `State.writeBackC` or `State.writeC`, whose frames the laws state once. What is left is
that the words and flags it writes are those of the exact integers: reduction modulo 2^32 goes through sums and differences, and an
immediate extended to 32 bits keeps its value. -/

namespace Sys2Proof.Machine

variable {i : Instr}

/-! ### Words printed beside their assembly -/

/-- A 16-bit row of the opcode table answers the instruction whose encoding the row's bits are. -/
theorem decodeTableWord_of_encode_half {w : Nat} (he : encode i = .half (BitVec.ofNat 16 w)) (hi : i ≠ .nopPar := by nofun) :
    decodeTableWord 16 w = some i := by
  obtain ⟨hhigh, hlow⟩ := decode_of_encode_half he hi
  simp [decodeTableWord, hhigh, hlow, instrOf]

/-- A 32-bit row of the opcode table answers the instruction whose encoding its two halfwords are. -/
theorem decodeTableWord_of_encode_word {w : Nat}
    (he : encode i = .word ((BitVec.ofNat 32 w).extractLsb' 16 16) ((BitVec.ofNat 32 w).extractLsb' 0 16)) :
    decodeTableWord 32 w = some i :=
  congrArg instrOf (decode_of_encode_word he)

/-- Settles O3: each word is the encoding of its assembly. -/
theorem printedWordsDecodeToTheirAssembly : Obligations.PrintedWordsDecodeToTheirAssembly :=
  ⟨decodeTableWord_of_encode_half rfl, decodeTableWord_of_encode_half rfl, decodeTableWord_of_encode_half rfl,
    decodeTableWord_of_encode_half rfl, decodeTableWord_of_encode_half rfl, decodeTableWord_of_encode_half rfl,
    decodeTableWord_of_encode_half rfl, decodeTableWord_of_encode_half rfl, decodeTableWord_of_encode_word rfl,
    decodeTableWord_of_encode_word rfl, decodeTableWord_of_encode_word rfl, decodeTableWord_of_encode_word rfl,
    decodeTableWord_of_encode_word rfl, decodeTableWord_of_encode_word rfl⟩

/-! ### Compare (R191 to R194) -/

/-- Settles O19: each of the instructions ends in the write of its flag. CMPI compares with the immediate's own signed value;
CMPUI with the unsigned value of its sign-extension. -/
theorem compareInstructionsSetTheConditionBit : Obligations.CompareInstructionsSetTheConditionBit := by
  refine ⟨fun a b => ⟨spelled16_of_encode rfl, spelled16_of_encode rfl⟩,
    fun a x => ⟨spelled32_of_encode rfl, spelled32_of_encode rfl⟩,
    fun s a b x => ⟨writesC_of_writeC rfl, ?_, writesC_of_writeC rfl, writesC_of_writeC rfl⟩⟩
  rw [← sext_toInt (by decide) x]
  exact writesC_of_writeC rfl

/-! ### Sums and differences modulo 2^32 (R195 to R204) -/

/-- The sum of two words is their exact signed sum modulo 2^32. -/
theorem ofInt_toInt_add_toInt (a b : Word) : BitVec.ofInt 32 (a.toInt + b.toInt) = a + b := by
  rw [BitVec.ofInt_add, BitVec.ofInt_toInt, BitVec.ofInt_toInt]

/-- The difference of two words is their exact signed difference modulo 2^32. -/
theorem ofInt_toInt_sub_toInt (a b : Word) : BitVec.ofInt 32 (a.toInt - b.toInt) = a - b := by
  rw [Int.sub_eq_add_neg, BitVec.ofInt_add, BitVec.ofInt_neg, BitVec.ofInt_toInt, BitVec.ofInt_toInt, BitVec.sub_eq_add_neg]

/-- The signed range is left below or above. -/
theorem outsideInt32_eq (x : Int) : outsideInt32 x = decide (x < -2 ^ 31 ∨ 2 ^ 31 - 1 < x) := (Bool.decide_or _ _).symm

/-- SUBX borrows exactly where the minuend is less than what is taken from it. -/
theorem borrowOut_eq (a b : Word) (c : Bool) : borrowOut a b c = decide (a.toNat < b.toNat + c.toNat) := by
  rw [borrowOut, diffWithBorrow, decide_eq_decide]
  omega

/-- Settles O20: each of the instructions ends in the write of its sum or difference, and of its flag where it has one. -/
theorem additionsAndSubtractionsWrapAndReport : Obligations.AdditionsAndSubtractionsWrapAndReport := by
  refine ⟨fun d r => ⟨spelled16_of_encode rfl, spelled16_of_encode rfl, spelled16_of_encode rfl, spelled16_of_encode rfl,
      spelled16_of_encode rfl, spelled16_of_encode rfl, spelled16_of_encode rfl⟩,
    fun d x => spelled8_of_encode rfl, fun d r x => ⟨spelled32_of_encode rfl, spelled32_of_encode rfl⟩, fun s d r x y => ?_⟩
  have himm16 : x.toInt = (sext x).toInt := (sext_toInt (by decide) x).symm
  have himm8 : y.toInt = (sext y).toInt := (sext_toInt (by decide) y).symm
  have hzero : (0 : Int) = (0 : Word).toInt := rfl
  rw [himm16, himm8, hzero]
  simp only [ofInt_toInt_add_toInt, ofInt_toInt_sub_toInt, ← outsideInt32_eq, ← borrowOut_eq]
  exact ⟨writesReg_of_writeBack [] rfl, writesReg_of_writeBack [] rfl, writesReg_of_writeBack [] rfl,
    writesReg_of_writeBack [] rfl, writesReg_of_writeBack [] rfl, writesRegAndC_of_writeBackC rfl,
    writesRegAndC_of_writeBackC rfl, writesRegAndC_of_writeBackC rfl, writesRegAndC_of_writeBackC rfl,
    writesRegAndC_of_writeBackC rfl⟩

/-! ### Logic (R205 to R211) -/

/-- A zero-extended immediate has its own bits, and 0 above them. -/
theorem getLsbD_zext {w : Nat} (x : BitVec w) {n : Nat} (hn : n < 32) :
    (zext x).getLsbD n = (decide (n < w) && x.getLsbD n) := by
  have hown : (zext x).getLsbD n = x.getLsbD n := by simp [zext, hn]
  by_cases hw : n < w
  · simp [hown, hw]
  · simp [hown, hw, BitVec.getLsbD_of_ge x n (by omega)]

/-- Settles O21: each of the instructions ends in the write of the word that its connective gives, read off bit by bit. -/
theorem logicInstructionsWorkBitByBit : Obligations.LogicInstructionsWorkBitByBit := by
  refine ⟨fun d r => ⟨spelled16_of_encode rfl, spelled16_of_encode rfl, spelled16_of_encode rfl, spelled16_of_encode rfl⟩,
    fun d r x => ⟨spelled32_of_encode rfl, spelled32_of_encode rfl, spelled32_of_encode rfl⟩, fun s d r x =>
    ⟨⟨_, writesReg_of_writeBack [] rfl, fun n _ => BitVec.getLsbD_and⟩,
      ⟨_, writesReg_of_writeBack [] rfl, fun n _ => BitVec.getLsbD_or⟩,
      ⟨_, writesReg_of_writeBack [] rfl, fun n _ => BitVec.getLsbD_xor⟩,
      ⟨_, writesReg_of_writeBack [] rfl, fun n hn => ?_⟩,
      ⟨_, writesReg_of_writeBack [] rfl, fun n hn => ?_⟩,
      ⟨_, writesReg_of_writeBack [] rfl, fun n hn => ?_⟩,
      ⟨_, writesReg_of_writeBack [] rfl, fun n hn => ?_⟩⟩⟩
  · rw [BitVec.getLsbD_not, decide_eq_true hn, Bool.true_and]
  · rw [BitVec.getLsbD_and, getLsbD_zext x hn, Bool.and_assoc]
  · rw [BitVec.getLsbD_or, getLsbD_zext x hn]
  · rw [BitVec.getLsbD_xor, getLsbD_zext x hn]

end Sys2Proof.Machine
end

section
/-! PROOFS. Multiply, divide and shift instructions (43_muldiv_shift.md): the nine shifts.

Every shift ends in `State.writeBack`. What is left is that the word it writes is the shifted operand as a number: its unsigned
value times or by a power of two, or, where copies of the sign come in, its signed value by a power of two, rounded down. -/

namespace Sys2Proof.Machine

/-! ### Shifts (R227 to R236) -/

/-- A left shift multiplies the unsigned value by a power of two, modulo 2^32. -/
theorem shiftLeft_eq_ofNat (v : Word) (n : Nat) : v <<< n = BitVec.ofNat 32 (v.toNat * 2 ^ n) := by
  rw [← Nat.shiftLeft_eq]
  rfl

/-- A logical right shift divides the unsigned value by a power of two, rounding down. -/
theorem ushiftRight_eq_ofNat (v : Word) (n : Nat) : v >>> n = BitVec.ofNat 32 (v.toNat / 2 ^ n) := by
  rw [← Nat.shiftRight_eq_div_pow, ← BitVec.toNat_ushiftRight, BitVec.ofNat_toNat, BitVec.setWidth_eq]

/-- An arithmetic right shift divides the signed value by a power of two, rounding toward minus infinity. -/
theorem sshiftRight_eq_ofInt (v : Word) (n : Nat) : v.sshiftRight n = BitVec.ofInt 32 (v.toInt / 2 ^ n) := by
  rw [BitVec.sshiftRight, Int.shiftRight_eq_div_pow]
  norm_cast

/-- Settles O23: each of the instructions ends in the write of its shifted operand, and a count that a register or a 16-bit
immediate gives is its value modulo 32. -/
theorem shiftsMultiplyOrDivideByAPowerOfTwo : Obligations.ShiftsMultiplyOrDivideByAPowerOfTwo := by
  refine ⟨fun d r => ⟨spelled16_of_encode rfl, spelled16_of_encode rfl, spelled16_of_encode rfl⟩,
    fun d y => ⟨spelled8_of_encode rfl, spelled8_of_encode rfl, spelled8_of_encode rfl⟩,
    fun d r x => ⟨spelled32_of_encode rfl, spelled32_of_encode rfl, spelled32_of_encode rfl⟩, fun s d r x y => ?_⟩
  simp only [← shiftCount_eq, ← shiftCountImm_eq, ← shiftLeft_eq_ofNat, ← ushiftRight_eq_ofNat, ← sshiftRight_eq_ofInt]
  exact ⟨writesReg_of_writeBack [] rfl, writesReg_of_writeBack [] rfl, writesReg_of_writeBack [] rfl,
    writesReg_of_writeBack [] rfl, writesReg_of_writeBack [] rfl, writesReg_of_writeBack [] rfl,
    writesReg_of_writeBack [] rfl, writesReg_of_writeBack [] rfl, writesReg_of_writeBack [] rfl⟩

end Sys2Proof.Machine
end

section
/-! PROOFS. Branch instructions and NOP (44_branch.md): BC, BNC and the branches on registers, BRA, BL, JMP and NOP.

The laws state once what an instruction does that ends in a jump, in the next instruction or in `State.branchIf`. What is left is
that the target is the exact sum of the PC's word and the displacement modulo 2^32, that a branch on a register tests the sign and
the zero of a signed number, and that a call writes R14 and nothing else. -/

namespace Sys2Proof.Machine

variable {s : State} {i : Instr}

/-! ### Targets (R250) -/

/-- The target of a PC-relative branch is the word of the PC plus four times the signed displacement, modulo 2^32. -/
theorem relTarget_eq_ofInt {n : Nat} (s : State) (pcdisp : BitVec n) :
    s.relTarget pcdisp = BitVec.ofInt 32 ((s.pc &&& 0xFFFFFFFC).toNat + 4 * pcdisp.toInt) := by
  have hshift : sext pcdisp <<< 2 = BitVec.ofInt 32 (4 * pcdisp.toInt) := by
    rw [sext_eq_ofInt, BitVec.shiftLeft_eq_mul_twoPow, BitVec.mul_comm, BitVec.ofInt_mul]
    rfl
  rw [BitVec.ofInt_add, BitVec.ofInt_natCast, BitVec.ofNat_toNat, BitVec.setWidth_eq, ← hshift]
  rfl

/-! ### Conditional branches (R253 to R261, R264 to R267) -/

section Conditional

variable {taken : Bool} {target len : Word} {c : Prop} [Decidable c]

/-- A branch that is taken where `c` holds. -/
theorem goesTo_of_branchIf_iff (hc : taken = true ↔ c) (h : exec i s = s.branchIf taken target len) :
    GoesTo i s (if c then target else s.pc + len) := by
  simpa only [hc] using goesTo_of_branchIf h

/-- A branch that is taken where `c` fails. -/
theorem goesTo_of_branchIf_iff_not (hc : taken = true ↔ ¬ c) (h : exec i s = s.branchIf taken target len) :
    GoesTo i s (if c then s.pc + len else target) := by
  simpa only [ite_not] using goesTo_of_branchIf_iff hc h

end Conditional

theorem eq_zero_iff_toInt (v : Word) : v = 0 ↔ v.toInt = 0 := BitVec.toInt_inj.symm

theorem msb_iff_toInt (v : Word) : v.msb = true ↔ v.toInt < 0 := by
  rw [BitVec.msb_eq_toInt, decide_eq_true_iff]

theorem msb_or_zero_iff_toInt (v : Word) : (v.msb || decide (v = 0)) = true ↔ v.toInt ≤ 0 := by
  rw [Bool.or_eq_true, decide_eq_true_iff, msb_iff_toInt, eq_zero_iff_toInt, le_iff_lt_or_eq]

/-- BGEZ tests what BLTZ does not. -/
theorem not_msb_iff_toInt (v : Word) : (!v.msb) = true ↔ 0 ≤ v.toInt := by
  rw [Bool.not_eq_true', ← Bool.not_eq_true, msb_iff_toInt, not_lt]

/-- BGTZ tests what BLEZ does not. -/
theorem not_msb_and_ne_zero_iff_toInt (v : Word) : (!v.msb && decide (v ≠ 0)) = true ↔ 0 < v.toInt := by
  rw [Bool.and_eq_true, decide_eq_true_iff, not_msb_iff_toInt, ne_eq, eq_zero_iff_toInt, lt_iff_le_and_ne, ne_comm]

/-- Settles O29: each of the branches ends in `State.branchIf` with the displacement's target, and what it tests is the
condition of its rule. -/
theorem conditionalBranchesGoToTheirTargetOrOn : Obligations.ConditionalBranchesGoToTheirTargetOrOn := by
  refine ⟨fun x => ⟨spelled8_of_encode rfl, spelled8_of_encode rfl⟩,
    fun x => ⟨spelled24_of_encode rfl, spelled24_of_encode rfl⟩,
    fun a b x => ⟨spelled32_of_encode rfl, spelled32_of_encode rfl⟩,
    fun r x => ⟨spelled32_of_encode rfl, spelled32_of_encode rfl, spelled32_of_encode rfl, spelled32_of_encode rfl,
      spelled32_of_encode rfl, spelled32_of_encode rfl⟩,
    fun s x y near far hnear hfar => ?_, fun s a b x target htarget => ?_⟩
  · rw [← relTarget_eq_ofInt] at hnear hfar
    subst hnear hfar
    have hclear : (!s.psw.c) = true ↔ s.psw.c = false := by rw [Bool.not_eq_true']
    exact ⟨goesTo_of_branchIf rfl, goesTo_of_branchIf_iff hclear rfl, goesTo_of_branchIf rfl, goesTo_of_branchIf_iff hclear rfl⟩
  · rw [← relTarget_eq_ofInt] at htarget
    subst htarget
    simp only [← eq_zero_iff_toInt]
    exact ⟨goesTo_of_branchIf_iff decide_eq_true_iff rfl, goesTo_of_branchIf_iff_not decide_eq_true_iff rfl,
      goesTo_of_branchIf_iff decide_eq_true_iff rfl, goesTo_of_branchIf_iff_not decide_eq_true_iff rfl,
      goesTo_of_branchIf_iff (msb_iff_toInt _) rfl, goesTo_of_branchIf_iff (not_msb_iff_toInt _) rfl,
      goesTo_of_branchIf_iff (msb_or_zero_iff_toInt _) rfl, goesTo_of_branchIf_iff (not_msb_and_ne_zero_iff_toInt _) rfl⟩

/-! ### Calls and jumps (R251, R262, R263, R268, R269, R271) -/

/-- A call leaves the return address in R14, changes no other register and nothing else, and goes to its target. -/
theorem completes_of_link {target : Word} (h : exec i s = .next ((s.setReg linkReg s.linkAddress).jump target)) :
    Completes i s fun t =>
      t.reg 14 = (s.pc &&& 0xFFFFFFFC) + 4 ∧ RegsKeptBut [14] s t ∧ KeepsBut [] s t ∧ t.pc = target :=
  ⟨_, h, reg_setReg_same s linkReg s.linkAddress, regsKeptBut_setReg s linkReg s.linkAddress,
    keepsBut_setReg s [] linkReg s.linkAddress, rfl⟩

/-- Settles O30: a branch or jump ends in a jump to its target, a NOP in the next instruction, a call in a jump with the return
address left in R14. -/
theorem branchesCallsAndJumpsGoToTheirTarget : Obligations.BranchesCallsAndJumpsGoToTheirTarget := by
  refine ⟨fun x => ⟨spelled8_of_encode rfl, spelled8_of_encode rfl⟩,
    fun x => ⟨spelled24_of_encode rfl, spelled24_of_encode rfl⟩, fun r => spelled16_of_encode rfl,
    spelled16_of_encode rfl, decodeLow_parallelNop, fun s x y r near far hnear hfar => ?_⟩
  rw [← relTarget_eq_ofInt] at hnear hfar
  subst hnear hfar
  refine ⟨goesTo_of_jump rfl, goesTo_of_jump rfl, goesTo_of_jump rfl, goesTo_of_advance rfl, goesTo_of_advance rfl, ?_⟩
  rintro i target (⟨rfl, rfl⟩ | ⟨rfl, rfl⟩)
  · exact completes_of_link rfl
  · exact completes_of_link rfl

end Sys2Proof.Machine
end

section
/-! PROOFS. EIT instructions (45_eit_instructions.md): RTE.

RTE is `State.rteReturn` and nothing else. The laws state what the return leaves as it is and where it goes; what is left is what
becomes of the bits of the PSW that the rule names. -/

namespace Sys2Proof.Machine

/-- The return takes SM, IE and C from their backup bits (45_eit_instructions.md R281, 60_exceptions.md R414). -/
theorem rteReturn_restores (s : State) :
    s.rteReturn.psw.sm = s.psw.bsm ∧ s.rteReturn.psw.ie = s.psw.bie ∧ s.rteReturn.psw.c = s.psw.bc := ⟨rfl, rfl, rfl⟩

/-- The return leaves an even BPC, whatever is drawn for it (45_eit_instructions.md R281). -/
theorem rteReturn_bpc_even (s : State) : s.rteReturn.bpc.getLsbD 0 = false := by
  rw [rteReturn_bpc, even_and_mask]

theorem exec_rte (s : State) : exec .rte s = .next s.rteReturn := rfl

/-- Settles O33: RTE completes with `State.rteReturn`, whose effects and frame are the lemmas on it. -/
theorem rteRestoresAndReturns : Obligations.RteRestoresAndReturns := by
  refine ⟨spelled16_of_encode rfl, fun s => ⟨s.rteReturn, exec_rte s, ?_⟩⟩
  obtain ⟨hsm, hie, hc⟩ := rteReturn_restores s
  exact ⟨hsm, hie, hc, rteReturn_pc s, rteReturn_bpc_even s, rteReturn_banks, rteReturn_keeps⟩

end Sys2Proof.Machine
end

section
/-! PROOFS. DSP function instructions (46_dsp.md): the multiplications into the accumulator, the transfers, RAC and RACH.

Every instruction that writes the accumulator ends in a new accumulator and the next instruction, and changes nothing else. What is
left is that what it writes is the exact integer: a halfword is a signed quotient, a window of the accumulator a signed quotient
modulo 2^32, and a rounded value is the only multiple in its range. -/

namespace Sys2Proof.Machine

variable {s : State} {i : Instr}

/-! ### Writes of the accumulator (R290) -/

/-- An instruction that ends in a new accumulator changes it and the program counter only. -/
theorem completes_of_withAcc {x : Acc} (h : exec i s = .next (({ s with acc := x } : State).advance 2)) :
    Completes i s fun t => t.acc = x ∧ RegsKeptBut [] s t ∧ KeepsBut [.acc] s t ∧ t.pc = s.pc + 2 :=
  ⟨_, h, rfl, regsKeptBut_of_banks _ rfl rfl rfl rfl, by simp [KeepsBut], rfl⟩

/-- An instruction that ends in `writeAcc` leaves the low 56 bits of its value in the accumulator. -/
theorem completes_of_writeAcc {v : Int} (h : exec i s = s.writeAcc v) :
    Completes i s fun t => t.acc = BitVec.ofInt 56 v ∧ RegsKeptBut [] s t ∧ KeepsBut [.acc] s t ∧ t.pc = s.pc + 2 :=
  completes_of_withAcc h

/-! ### Multiply (R292 to R295) -/

/-- A word is its high halfword, signed, times 2^16 plus its low halfword, unsigned. -/
theorem toInt_eq_hi16 (v : Word) : v.toInt = hi16 v * 2 ^ 16 + (v.extractLsb' 0 16).toNat := by
  have happend : v.extractLsb' 16 16 ++ v.extractLsb' 0 16 = v := BitVec.extractLsb'_append_extractLsb'
  calc v.toInt = (v.extractLsb' 16 16 ++ v.extractLsb' 0 16).toInt := by rw [happend]
    _ = 2 ^ 16 * hi16 v + (v.extractLsb' 0 16).toNat := BitVec.toInt_append
    _ = hi16 v * 2 ^ 16 + (v.extractLsb' 0 16).toNat := by rw [mul_comm]

/-- The high halfword is the only number of which this holds. -/
theorem eq_hi16 {v : Word} {xh : Int} (h : v.toInt = xh * 2 ^ 16 + (v.extractLsb' 0 16).toNat) : xh = hi16 v := by
  rw [toInt_eq_hi16] at h
  omega

/-- Settles O37: each of the multiplications ends in `State.writeAcc` with the product of the halfwords or words it names. -/
theorem multipliesFillTheAccumulator : Obligations.MultipliesFillTheAccumulator := by
  refine ⟨fun a b => ⟨spelled16_of_encode rfl, spelled16_of_encode rfl, spelled16_of_encode rfl, spelled16_of_encode rfl⟩, ?_⟩
  intro s a b x y xh xl yh yl hx hy hxh hxl hyh hyl i v hi
  obtain rfl := eq_hi16 (hx.symm.trans hxh)
  obtain rfl := eq_hi16 (hy.symm.trans hyh)
  subst hx hy hxl hyl
  obtain ⟨rfl, rfl⟩ | ⟨rfl, rfl⟩ | ⟨rfl, rfl⟩ | ⟨rfl, rfl⟩ := hi
  all_goals exact completes_of_writeAcc rfl

/-! ### Transfers (R300 to R304) -/

/-- A window that lies within a bit vector is the signed value, divided by the power of two below it, modulo the window's size. -/
theorem extractLsb'_eq_ofInt {w : Nat} (x : BitVec w) {start len : Nat} (h : start + len ≤ w) :
    x.extractLsb' start len = BitVec.ofInt len (x.toInt / 2 ^ start) := by
  have hshift : x.extractLsb' start len = (x.sshiftRight start).signExtend len := by
    apply BitVec.eq_of_getLsbD_eq
    intro n hn
    have hw : n < w := by omega
    have hin : start + n < w := by omega
    rw [BitVec.getLsbD_extractLsb', BitVec.getLsbD_signExtend, if_pos hw, BitVec.getLsbD_sshiftRight, if_pos hin]
    simp [hn, hw]
  calc x.extractLsb' start len = BitVec.ofInt len (x.sshiftRight start).toInt := hshift
    _ = BitVec.ofInt len (x.toInt / 2 ^ start) := by
      rw [BitVec.toInt_sshiftRight, Int.shiftRight_eq_div_pow]
      norm_cast

theorem acc64_toInt (a : Acc) : (acc64 a).toInt = a.toInt := BitVec.toInt_signExtend_of_le (by decide)

/-- A word-sized window of the accumulator's 64-bit view, as MVFACHI, MVFACLO and MVFACMI read it (R300 to R302). -/
theorem acc64_window (a : Acc) {start : Nat} (h : start + 32 ≤ 64) :
    (acc64 a).extractLsb' start 32 = BitVec.ofInt 32 (a.toInt / 2 ^ start) := by
  rw [extractLsb'_eq_ofInt _ h, acc64_toInt]

theorem acc64_lowWord (a : Acc) : (acc64 a).extractLsb' 0 32 = BitVec.ofInt 32 a.toInt := by
  rw [acc64_window a (by decide), pow_zero, Int.ediv_one]

/-- Two bit vectors put together are the number of the first times its place plus the number of the second. -/
theorem toNat_append_eq_add {m n : Nat} (x : BitVec m) (y : BitVec n) : (x ++ y).toNat = x.toNat * 2 ^ n + y.toNat := by
  rw [BitVec.toNat_append, ← Nat.shiftLeft_add_eq_or_of_lt y.isLt, Nat.shiftLeft_eq]

/-- The accumulator that MVTACHI leaves (R303). -/
theorem toNat_highWordWritten (a : Acc) (v : Word) :
    (v.extractLsb' 0 24 ++ a.extractLsb' 0 32).toNat = v.toNat % 2 ^ 24 * 2 ^ 32 + a.toNat % 2 ^ 32 := by
  rw [toNat_append_eq_add, BitVec.extractLsb'_toNat, BitVec.extractLsb'_toNat, Nat.shiftRight_zero, Nat.shiftRight_zero]

/-- The accumulator that MVTACLO leaves (R304). -/
theorem toNat_lowWordWritten (a : Acc) (v : Word) :
    (a.extractLsb' 32 24 ++ v).toNat = a.toNat / 2 ^ 32 * 2 ^ 32 + v.toNat := by
  have hhigh : a.toNat / 2 ^ 32 < 2 ^ 24 := by have := a.isLt; omega
  rw [toNat_append_eq_add, BitVec.extractLsb'_toNat, Nat.shiftRight_eq_div_pow, Nat.mod_eq_of_lt hhigh]

/-! ### Rounding (R305, R306) -/

/-- `v` is `t` rounded down to a multiple of `2 ^ k` and held between `-2^47` and the highest such multiple below `2^47`. -/
def RoundedDown (k : Nat) (t v : Int) : Prop :=
  (2 ^ 47 - 2 ^ k < t ∧ v = 2 ^ 47 - 2 ^ k) ∨ (t < -2 ^ 47 ∧ v = -2 ^ 47) ∨
    (-2 ^ 47 ≤ t ∧ t ≤ 2 ^ 47 - 2 ^ k ∧ 2 ^ k ∣ v ∧ v ≤ t ∧ t < v + 2 ^ k)

/-- The multiple of `m` at most `t` and less than `m` below it is `t` with its remainder taken away. -/
theorem ediv_mul_eq_of_dvd {t v m : Int} (hdvd : m ∣ v) (hle : v ≤ t) (hlt : t < v + m) : t / m * m = v := by
  have hrem : (t - v) / m = 0 := Int.ediv_eq_zero_of_lt (by omega) (by omega)
  have hdiv : t / m = v / m := by
    rw [Int.sub_ediv_of_dvd t hdvd] at hrem
    omega
  rw [hdiv, Int.ediv_mul_cancel hdvd]

section Rounding

variable {k : Nat} {a v : Int}

/-- The saturation process gives the rounded value. -/
theorem roundAcc_eq (hk : k ≤ 47) (h : RoundedDown k (a * 2 + 2 ^ (k - 1)) v) : roundAcc a k (2 ^ 47 - 2 ^ k) = v := by
  have hpow : (2 : Int) ^ k ≤ 2 ^ 47 := pow_le_pow_right₀ (by decide) hk
  unfold roundAcc
  obtain ⟨habove, rfl⟩ | ⟨hbelow, rfl⟩ | ⟨hlow, hhigh, hdvd, hle, hlt⟩ := h
  · exact if_pos habove
  · rw [if_neg (by omega), if_pos hbelow]
  · rw [if_neg (by omega), if_neg (by omega), ediv_mul_eq_of_dvd hdvd hle hlt]

/-- The rounded value is a signed number of 48 bits. -/
theorem roundedDown_range {t : Int} (hk : k ≤ 47) (h : RoundedDown k t v) : -2 ^ 47 ≤ v ∧ v < 2 ^ 47 := by
  have hpos : (0 : Int) < 2 ^ k := by positivity
  have hpow : (2 : Int) ^ k ≤ 2 ^ 47 := pow_le_pow_right₀ (by decide) hk
  obtain ⟨-, rfl⟩ | ⟨-, rfl⟩ | ⟨hlow, hhigh, hdvd, hle, hlt⟩ := h
  · omega
  · omega
  · have hsum : (2 : Int) ^ k ∣ -2 ^ 47 - v := dvd_sub (dvd_neg.mpr (pow_dvd_pow 2 hk)) hdvd
    have hnot : ¬ 0 < -2 ^ 47 - v := fun hlt' => by
      have := Int.le_of_dvd hlt' hsum
      omega
    omega

/-- An instruction that ends in the saturation process leaves the rounded value in the accumulator, which can hold it. -/
theorem completes_of_roundAcc (hk : k ≤ 47) (he : exec i s = s.writeAcc (roundAcc s.acc.toInt k (2 ^ 47 - 2 ^ k)))
    (h : RoundedDown k (s.acc.toInt * 2 + 2 ^ (k - 1)) v) :
    Completes i s fun u =>
      u.acc = BitVec.ofInt 56 v ∧ u.acc.toInt = v ∧ RegsKeptBut [] s u ∧ KeepsBut [.acc] s u ∧ u.pc = s.pc + 2 := by
  rw [roundAcc_eq hk h] at he
  obtain ⟨u, hu, hacc, hframe⟩ := completes_of_writeAcc he
  obtain ⟨hlow, hhigh⟩ := roundedDown_range hk h
  exact ⟨u, hu, hacc, by rw [hacc, BitVec.toInt_ofInt_eq_self (by decide) (by omega) (by omega)], hframe⟩

end Rounding

theorem exec_rac (s : State) : exec .rac s = s.writeAcc (roundAcc s.acc.toInt 16 (2 ^ 47 - 2 ^ 16)) := by
  rw [← acc64_toInt]
  rfl

theorem exec_rach (s : State) : exec .rach s = s.writeAcc (roundAcc s.acc.toInt 32 (2 ^ 47 - 2 ^ 32)) := by
  rw [← acc64_toInt]
  rfl

/-- Settles O39: a read of the accumulator is the write of a window to a register, a write of it replaces one of its halves, and
RAC and RACH end in the saturation process for their `k`. -/
theorem accumulatorTransfersAndRoundings : Obligations.AccumulatorTransfersAndRoundings := by
  refine ⟨fun r => ⟨spelled16_of_encode rfl, spelled16_of_encode rfl, spelled16_of_encode rfl, spelled16_of_encode rfl,
    spelled16_of_encode rfl⟩, spelled16_of_encode rfl, spelled16_of_encode rfl, fun s r => ⟨?_, ?_, ?_, ?_, ?_⟩, ?_⟩
  · rw [← acc64_window s.acc (by decide)]
    exact writesReg_of_writeBack [] rfl
  · rw [← acc64_lowWord]
    exact writesReg_of_writeBack [] rfl
  · rw [← acc64_window s.acc (by decide)]
    exact writesReg_of_writeBack [] rfl
  · simp only [← toNat_highWordWritten, BitVec.toNat_inj]
    exact completes_of_withAcc rfl
  · simp only [← toNat_lowWordWritten, BitVec.toNat_inj]
    exact completes_of_withAcc rfl
  · rintro s i k t v (⟨rfl, rfl⟩ | ⟨rfl, rfl⟩) rfl h
    · exact completes_of_roundAcc (by decide) (exec_rac s) h
    · exact completes_of_roundAcc (by decide) (exec_rach s) h

end Sys2Proof.Machine
end

section
/-! PROOFS. The single-precision format (47_float_arith.md R320, R322, R342): the classes of operands by exponent and fraction, a
number with its sign inverted, a denormalized operand as a zero, and a number put together from a sign and a magnitude. -/

namespace Sys2Proof.Machine

variable {x y : Word}

/-! ### The fields -/

theorem fpSign_eq (x : Word) : fpSign x = decide (2 ^ 31 ≤ x.toNat) := BitVec.msb_eq_decide x

theorem fpExp_eq (x : Word) : fpExp x = x.toNat / 2 ^ 23 % 2 ^ 8 := by
  rw [fpExp, BitVec.extractLsb'_toNat, Nat.shiftRight_eq_div_pow]

theorem fpFrac_eq (x : Word) : fpFrac x = x.toNat % 2 ^ 23 := by
  rw [fpFrac, BitVec.extractLsb'_toNat, Nat.shiftRight_zero]

/-- A word is its three fields side by side. -/
theorem toNat_eq_fields (x : Word) :
    x.toNat = (if fpSign x = true then 2 ^ 31 else 0) + fpExp x * 2 ^ 23 + fpFrac x := by
  have hx := x.isLt
  simp only [fpSign_eq, fpExp_eq, fpFrac_eq, decide_eq_true_eq]
  split <;> omega

/-- Words with the same three fields are the same. -/
theorem eq_of_fields (hs : fpSign x = fpSign y) (he : fpExp x = fpExp y) (hf : fpFrac x = fpFrac y) : x = y := by
  apply BitVec.eq_of_toNat_eq
  rw [toNat_eq_fields x, toNat_eq_fields y, hs, he, hf]

/-! ### The classes -/

theorem isZero_iff : isZero x = true ↔ fpExp x = 0 ∧ fpFrac x = 0 := by simp [isZero]

theorem isDenormal_iff : isDenormal x = true ↔ fpExp x = 0 ∧ fpFrac x ≠ 0 := by simp [isDenormal]

theorem isInfinite_iff : isInfinite x = true ↔ fpExp x = 255 ∧ fpFrac x = 0 := by simp [isInfinite]

theorem isNan_iff : isNan x = true ↔ fpExp x = 255 ∧ fpFrac x ≠ 0 := by
  simp only [isNan, isQnan, isSnan, Bool.or_eq_true, Bool.and_eq_true, decide_eq_true_eq, ne_eq]
  omega

theorem isNan_eq_false_iff : isNan x = false ↔ isSnan x = false ∧ isQnan x = false := by
  rw [isNan, Bool.or_eq_false_iff, and_comm]

theorem isSnan_of_not_nan (h : isNan x = false) : isSnan x = false := (isNan_eq_false_iff.mp h).1

theorem isQnan_of_not_nan (h : isNan x = false) : isQnan x = false := (isNan_eq_false_iff.mp h).2

theorem isSnan_of_qnan (h : isQnan x = true) : isSnan x = false := by
  simp only [isQnan, Bool.and_eq_true, decide_eq_true_eq] at h
  simp only [isSnan, decide_eq_false (Nat.not_lt.mpr h.2), Bool.and_false]

theorem isNan_of_qnan (h : isQnan x = true) : isNan x = true := by rw [isNan, h, Bool.true_or]

theorem isNan_of_snan (h : isSnan x = true) : isNan x = true := by rw [isNan, h, Bool.or_true]

theorem nan_cases (x : Word) : isSnan x = true ∨ isQnan x = true ∨ isNan x = false := by
  cases hs : isSnan x
  · cases hq : isQnan x
    · exact .inr (.inr (isNan_eq_false_iff.mpr ⟨hs, hq⟩))
    · exact .inr (.inl rfl)
  · exact .inl rfl

/-- The exponent tells denormalized numbers and zeros, normalized numbers, infinities and NaNs apart. -/
theorem isNan_of_exp (h : fpExp x ≠ 255) : isNan x = false := by
  rw [Bool.eq_false_iff, Ne, isNan_iff]
  exact fun hx => h hx.1

theorem isInfinite_of_exp (h : fpExp x ≠ 255) : isInfinite x = false := by
  rw [Bool.eq_false_iff, Ne, isInfinite_iff]
  exact fun hx => h hx.1

theorem isDenormal_of_exp (h : fpExp x ≠ 0) : isDenormal x = false := by
  rw [Bool.eq_false_iff, Ne, isDenormal_iff]
  exact fun hx => h hx.1

theorem isZero_of_exp (h : fpExp x ≠ 0) : isZero x = false := by
  rw [Bool.eq_false_iff, Ne, isZero_iff]
  exact fun hx => h hx.1

theorem isNan_of_infinite (h : isInfinite x = true) : isNan x = false := by
  rw [Bool.eq_false_iff, Ne, isNan_iff]
  exact fun hx => hx.2 (isInfinite_iff.mp h).2

theorem fpExp_of_infinite (h : isInfinite x = true) : fpExp x ≠ 0 := by
  rw [(isInfinite_iff.mp h).1]
  decide

theorem fpExp_of_denormal (h : isDenormal x = true) : fpExp x = 0 := (isDenormal_iff.mp h).1

theorem isNan_of_denormal (h : isDenormal x = true) : isNan x = false :=
  isNan_of_exp (by rw [fpExp_of_denormal h]; decide)

theorem isDenormal_of_nan (h : isNan x = true) : isDenormal x = false :=
  isDenormal_of_exp (by rw [(isNan_iff.mp h).1]; decide)

/-- Two infinities of one sign are the same. -/
theorem eq_of_infinite (hx : isInfinite x = true) (hy : isInfinite y = true) (hs : fpSign x = fpSign y) : x = y := by
  obtain ⟨hex, hfx⟩ := isInfinite_iff.mp hx
  obtain ⟨hey, hfy⟩ := isInfinite_iff.mp hy
  exact eq_of_fields hs (hex.trans hey.symm) (hfx.trans hfy.symm)

/-- A zero or a normalized number. -/
def IsNumber (x : Word) : Prop := isZero x = true ∨ (1 ≤ fpExp x ∧ fpExp x ≤ 254)

theorem isNan_of_number (h : IsNumber x) : isNan x = false := by
  apply isNan_of_exp
  obtain h | h := h
  · rw [(isZero_iff.mp h).1]
    decide
  · omega

theorem isInfinite_of_number (h : IsNumber x) : isInfinite x = false := by
  apply isInfinite_of_exp
  obtain h | h := h
  · rw [(isZero_iff.mp h).1]
    decide
  · omega

theorem isDenormal_of_number (h : IsNumber x) : isDenormal x = false := by
  rw [Bool.eq_false_iff, Ne, isDenormal_iff]
  rintro ⟨he, hf⟩
  obtain h | h := h
  · exact hf (isZero_iff.mp h).2
  · omega

/-! ### Values -/

/-- A zero is what has the value 0. -/
theorem fpMag_eq_zero_iff : fpMag x = 0 ↔ isZero x = true := by
  rw [isZero_iff, fpMag]
  split
  · next he => simp [he]
  · next he => simp [he]

theorem fpVal_eq_zero_iff : fpVal x = 0 ↔ isZero x = true := by
  rw [← fpMag_eq_zero_iff, fpVal]
  split <;> omega

/-- The values of numbers that are no zeros cancel only where the signs differ. -/
theorem fpSign_ne_of_add_eq_zero (hx : isZero x = false) (h : fpVal x + fpVal y = 0) : fpSign x ≠ fpSign y := by
  intro hs
  have hne : fpMag x ≠ 0 := fun h0 => by rw [fpMag_eq_zero_iff.mp h0] at hx; cases hx
  rw [fpVal, fpVal, ← hs] at h
  split at h <;> omega

/-! ### A sign inverted (R342) -/

@[simp] theorem fpSign_negate (x : Word) : fpSign (negate x) = !fpSign x := by
  rw [fpSign, negate, BitVec.msb_xor]
  exact Bool.xor_true _

@[simp] theorem fpExp_negate (x : Word) : fpExp (negate x) = fpExp x := by simp [fpExp, negate, BitVec.extractLsb'_xor]

@[simp] theorem fpFrac_negate (x : Word) : fpFrac (negate x) = fpFrac x := by simp [fpFrac, negate, BitVec.extractLsb'_xor]

@[simp] theorem isZero_negate (x : Word) : isZero (negate x) = isZero x := by simp [isZero]

@[simp] theorem isDenormal_negate (x : Word) : isDenormal (negate x) = isDenormal x := by simp [isDenormal]

@[simp] theorem isInfinite_negate (x : Word) : isInfinite (negate x) = isInfinite x := by simp [isInfinite]

@[simp] theorem isSnan_negate (x : Word) : isSnan (negate x) = isSnan x := by simp [isSnan]

@[simp] theorem isQnan_negate (x : Word) : isQnan (negate x) = isQnan x := by simp [isQnan]

@[simp] theorem isNan_negate (x : Word) : isNan (negate x) = isNan x := by simp [isNan]

@[simp] theorem fpVal_negate (x : Word) : fpVal (negate x) = -fpVal x := by
  simp only [fpVal, fpMag, fpSign_negate, fpExp_negate, fpFrac_negate]
  cases fpSign x <;> simp

/-! ### A denormalized operand as the zero of its sign (R322) -/

theorem fpSign_and_signBit (x : Word) : fpSign (x &&& 0x80000000) = fpSign x := by
  rw [fpSign, BitVec.msb_and]
  exact Bool.and_true _

theorem isZero_and_signBit (x : Word) : isZero (x &&& 0x80000000) = true := by
  simp [isZero, fpExp, fpFrac, BitVec.extractLsb'_and]

theorem flush_of_denormal (h : isDenormal x = true) : flush x = x &&& 0x80000000 := by rw [flush, if_pos h]

theorem flush_of_not_denormal (h : isDenormal x = false) : flush x = x := by rw [flush, h]; rfl

theorem flush_of_number (h : IsNumber x) : flush x = x := flush_of_not_denormal (isDenormal_of_number h)

theorem flush_of_infinite (h : isInfinite x = true) : flush x = x :=
  flush_of_not_denormal (isDenormal_of_exp (fpExp_of_infinite h))

@[simp] theorem fpSign_flush (x : Word) : fpSign (flush x) = fpSign x := by
  rw [flush]
  split
  · exact fpSign_and_signBit x
  · rfl

/-- A flushed operand is a zero exactly where its exponent is 0. -/
theorem isZero_flush_iff : isZero (flush x) = true ↔ fpExp x = 0 := by
  rw [flush]
  split
  · next h => simp only [isZero_and_signBit, fpExp_of_denormal h]
  · next h =>
    rw [isDenormal_iff, not_and_not_right] at h
    rw [isZero_iff]
    exact ⟨And.left, fun he => ⟨he, h he⟩⟩

theorem isZero_flush_of_exp (h : fpExp x ≠ 0) : isZero (flush x) = false := by
  rw [Bool.eq_false_iff, Ne, isZero_flush_iff]
  exact h

theorem isNumber_flush_of_denormal (h : isDenormal x = true) : IsNumber (flush x) :=
  .inl (isZero_flush_iff.mpr (fpExp_of_denormal h))

@[simp] theorem isDenormal_flush (x : Word) : isDenormal (flush x) = false := by
  cases h : isDenormal x
  · rw [flush_of_not_denormal h, h]
  · exact isDenormal_of_number (isNumber_flush_of_denormal h)

@[simp] theorem isInfinite_flush (x : Word) : isInfinite (flush x) = isInfinite x := by
  cases h : isDenormal x
  · rw [flush_of_not_denormal h]
  · rw [isInfinite_of_number (isNumber_flush_of_denormal h), isInfinite_of_exp (by rw [fpExp_of_denormal h]; decide)]

@[simp] theorem flush_flush (x : Word) : flush (flush x) = flush x := flush_of_not_denormal (isDenormal_flush x)

/-- A NaN is not flushed, and nothing flushed is a NaN. -/
theorem flush_of_nan (h : isNan x = true) : flush x = x := flush_of_not_denormal (isDenormal_of_nan h)

@[simp] theorem isNan_flush (x : Word) : isNan (flush x) = isNan x := by
  cases h : isDenormal x
  · rw [flush_of_not_denormal h]
  · rw [isNan_of_number (isNumber_flush_of_denormal h), isNan_of_denormal h]

theorem isSnan_flush (x : Word) : isSnan (flush x) = isSnan x := by
  cases h : isDenormal x
  · rw [flush_of_not_denormal h]
  · rw [isSnan_of_not_nan (isNan_of_number (isNumber_flush_of_denormal h)), isSnan_of_not_nan (isNan_of_denormal h)]

@[simp] theorem flush_negate (x : Word) : flush (negate x) = negate (flush x) := by
  rw [flush, flush, isDenormal_negate]
  split
  · apply BitVec.eq_of_getLsbD_eq
    intro i _
    simp only [negate, BitVec.getLsbD_and, BitVec.getLsbD_xor, Bool.and_xor_distrib_right, Bool.and_self]
  · rfl

/-! ### Constants and numbers put together -/

theorem isZero_signedZero (neg : Bool) : isZero (signedZero neg) = true := by cases neg <;> decide

theorem isInfinite_signedInf (neg : Bool) : isInfinite (signedInf neg) = true := by cases neg <;> decide

theorem isNan_overflowValue (rm : RoundMode) (neg : Bool) : isNan (overflowValue rm neg) = false := by
  cases rm <;> cases neg <;> decide

/-- The zero and the infinity of a product or a quotient, by the signs of the operands. -/
theorem signedZero_bne (p q : Bool) : signedZero (p != q) = if p = q then 0 else 0x80000000 := by cases p <;> cases q <;> rfl

theorem signedInf_bne (p q : Bool) : signedInf (p != q) = if p = q then 0x7F800000 else 0xFF800000 := by
  cases p <;> cases q <;> rfl

theorem isQnan_defaultNan : isQnan defaultNan = true := by decide

/-- An SNaN is converted to a QNaN (R334, Note 1). -/
theorem isQnan_quiet (h : isSnan x = true) : isQnan (quiet x) = true := by
  have he := (isNan_iff.mp (isNan_of_snan h)).1
  have hexp : fpExp (quiet x) = fpExp x := by simp [fpExp, quiet, BitVec.extractLsb'_or]
  have hfrac : 2 ^ 22 ≤ fpFrac (quiet x) := by
    simp only [fpFrac, quiet, BitVec.extractLsb'_or, BitVec.toNat_or]
    exact Nat.right_le_or
  rw [isQnan, hexp, he, decide_eq_true hfrac]
  rfl

variable {neg : Bool} {mag : Nat}

theorem toNat_fpPack (h : mag < 2 ^ 31) : (fpPack neg mag).toNat = (if neg then 2 ^ 31 else 0) + mag := by
  rw [fpPack, BitVec.toNat_ofNat, Nat.mod_eq_of_lt]
  split <;> omega

theorem fpSign_fpPack (h : mag < 2 ^ 31) : fpSign (fpPack neg mag) = neg := by
  rw [fpSign_eq, toNat_fpPack h]
  cases neg
  · simpa using h
  · simp

theorem fpExp_fpPack (h : mag < 2 ^ 31) : fpExp (fpPack neg mag) = mag / 2 ^ 23 := by
  rw [fpExp_eq, toNat_fpPack h]
  split <;> omega

theorem fpFrac_fpPack (h : mag < 2 ^ 31) : fpFrac (fpPack neg mag) = mag % 2 ^ 23 := by
  rw [fpFrac_eq, toNat_fpPack h]
  split <;> omega

theorem getLsbD_fpPack (h : mag < 2 ^ 31) : (fpPack neg mag).getLsbD 0 = decide (mag % 2 = 1) := by
  have hbit : (fpPack neg mag).getLsbD 0 = decide ((fpPack neg mag).toNat % 2 = 1) := by
    rw [BitVec.getLsbD, Nat.testBit_zero]
  rw [hbit, toNat_fpPack h, decide_eq_decide]
  split <;> omega

end Sys2Proof.Machine
end

section
/-! PROOFS. Rounding and the arithmetic finish (47_float_arith.md R323, R336).

A magnitude `num / den` of at least 2^-126 lies between two neighbouring multiples of the unit of its last place. `roundUnit` is
that unit and `fpQuot` the multiple below, with `fpRem` left over; the rounded number is that multiple or the next one. What the
statement says then follows from which of the two `roundsUp` takes. -/

namespace Sys2Proof.Machine

variable {rnd : RoundMode} {neg : Bool} {num den : Nat}

/-! ### The neighbours of an exact magnitude -/

/-- One unit of the last place of a magnitude, in units of 2^-149 out of `den`. -/
def roundUnit (num den : Nat) : Nat := den * 2 ^ (fpLog num den - 23)

theorem roundUnit_pos (hden : 0 < den) : 0 < roundUnit num den := Nat.mul_pos hden (Nat.two_pow_pos _)

theorem mul_two_pow_add (n i j : Nat) : n * 2 ^ (i + j) = n * 2 ^ i * 2 ^ j := by rw [Nat.pow_add, Nat.mul_assoc]

/-- The quotient of a number and the power of two below it, in 24 bits. -/
theorem quotient_range {want scale : Nat} (hlow : scale ≤ want) (hhigh : want < scale * 2) :
    2 ^ 23 ≤ want * 2 ^ 23 / scale ∧ want * 2 ^ 23 / scale < 2 ^ 24 := by
  rw [Nat.le_div_iff_mul_le (by omega), Nat.div_lt_iff_lt_mul (by omega)]
  omega

section

variable (hden : 0 < den) (h : den ≤ num * 2 ^ 126)
include hden h

/-- A magnitude of at least 2^-126 is at least 2^23 units of 2^-149. -/
theorem exact_ge : 2 ^ 23 ≤ num * 2 ^ 149 / den := by
  rw [Nat.le_div_iff_mul_le hden, Nat.mul_comm, mul_two_pow_add num 126 23]
  exact Nat.mul_le_mul_right _ h

theorem fpLog_ge : 23 ≤ fpLog num den :=
  have hexact := exact_ge hden h
  (Nat.le_log2 (by omega)).mpr hexact

theorem fpScale_eq : fpScale num den = roundUnit num den * 2 ^ 23 := by
  rw [fpScale, roundUnit, Nat.mul_assoc, ← Nat.pow_add, Nat.sub_add_cancel (fpLog_ge hden h)]

/-- The exact magnitude is `fpQuot` units and what `fpRem` leaves of one more. -/
theorem exact_eq_fpQuot_add_fpRem :
    num * 2 ^ 149 * 2 ^ 23 = roundUnit num den * fpQuot num den * 2 ^ 23 + fpRem num den := by
  rw [← mul_two_pow_add num 149 23, Nat.mul_right_comm, ← fpScale_eq hden h]
  exact (Nat.div_add_mod _ _).symm

theorem fpRem_lt : fpRem num den < roundUnit num den * 2 ^ 23 := by
  rw [← fpScale_eq hden h]
  exact Nat.mod_lt _ (Nat.mul_pos hden (Nat.two_pow_pos _))

/-- The significand before rounding has 24 bits. -/
theorem fpQuot_range : 2 ^ 23 ≤ fpQuot num den ∧ fpQuot num den < 2 ^ 24 := by
  have hne : num * 2 ^ 149 / den ≠ 0 := (Nat.lt_of_lt_of_le (by decide) (exact_ge hden h)).ne'
  have hlow : 2 ^ fpLog num den * den ≤ num * 2 ^ 149 := (Nat.le_div_iff_mul_le hden).mp (Nat.log2_self_le hne)
  have hhigh : num * 2 ^ 149 < 2 ^ (fpLog num den + 1) * den := (Nat.div_lt_iff_lt_mul hden).mp Nat.lt_log2_self
  rw [Nat.mul_comm, ← fpScale] at hlow
  rw [Nat.mul_comm (2 ^ _), mul_two_pow_add, ← fpScale] at hhigh
  rw [fpQuot, mul_two_pow_add num 149 23]
  exact quotient_range hlow hhigh

end

/-! ### Which neighbour is taken (R323) -/

/-- An exact magnitude is not rounded up. -/
theorem roundsUp_exact {q d : Nat} (hd : 0 < d) : roundsUp rnd neg q 0 d = false := by
  cases rnd <;> simp [roundsUp, hd.ne]

theorem roundsUp_nearest_iff {q r d : Nat} :
    roundsUp .nearest neg q r d = true ↔ d < 2 * r ∨ (2 * r = d ∧ q % 2 = 1) := by simp [roundsUp]

theorem roundsUp_zero {q r d : Nat} : roundsUp .zero neg q r d = false := rfl

theorem roundsUp_plusInf_iff {q r d : Nat} : roundsUp .plusInf neg q r d = true ↔ neg = false ∧ r ≠ 0 := by simp [roundsUp]

theorem roundsUp_minusInf_iff {q r d : Nat} : roundsUp .minusInf neg q r d = true ↔ neg = true ∧ r ≠ 0 := by simp [roundsUp]

/-- Whether the magnitude is rounded up. -/
def upOf (rnd : RoundMode) (neg : Bool) (num den : Nat) : Bool :=
  roundsUp rnd neg (fpQuot num den) (fpRem num den) (fpScale num den)

theorem roundMag_eq (rnd : RoundMode) (neg : Bool) (num den : Nat) :
    roundMag rnd neg num den = (fpLog num den - 23) * 2 ^ 23 + (fpQuot num den + (upOf rnd neg num den).toNat) := by
  rw [roundMag, upOf, Nat.add_assoc]

/-- A significand of up to 2^24, the carry out of the rounding among them, above a biased exponent: the fields of the number put
together and its magnitude. -/
theorem fpPack_significand {e sig : Nat} (hlow : 2 ^ 23 ≤ sig) (hhigh : sig ≤ 2 ^ 24) (h : e * 2 ^ 23 + sig < 2 ^ 31) :
    fpMag (fpPack neg (e * 2 ^ 23 + sig)) = sig * 2 ^ e ∧
    (fpExp (fpPack neg (e * 2 ^ 23 + sig)) = e + 1 ∨ (sig = 2 ^ 24 ∧ fpExp (fpPack neg (e * 2 ^ 23 + sig)) = e + 2)) := by
  rw [fpMag, fpExp_fpPack h, fpFrac_fpPack h]
  obtain hlt | rfl := Nat.lt_or_eq_of_le hhigh
  · have he : (e * 2 ^ 23 + sig) / 2 ^ 23 = e + 1 := by omega
    have hf : 2 ^ 23 + (e * 2 ^ 23 + sig) % 2 ^ 23 = sig := by omega
    rw [he, if_neg e.succ_ne_zero, hf]
    exact ⟨rfl, .inl rfl⟩
  · have he : (e * 2 ^ 23 + 2 ^ 24) / 2 ^ 23 = e + 2 := by omega
    have hf : 2 ^ 23 + (e * 2 ^ 23 + 2 ^ 24) % 2 ^ 23 = 2 ^ 23 := by omega
    rw [he, if_neg (e + 1).succ_ne_zero, hf]
    exact ⟨by rw [show e + 2 - 1 = e + 1 from rfl, Nat.pow_succ]; ring, .inr ⟨rfl, rfl⟩⟩

theorem significand_range (hden : 0 < den) (h : den ≤ num * 2 ^ 126) :
    2 ^ 23 ≤ fpQuot num den + (upOf rnd neg num den).toNat ∧ fpQuot num den + (upOf rnd neg num den).toNat ≤ 2 ^ 24 := by
  have hq := fpQuot_range hden h
  have hup := Bool.toNat_le (upOf rnd neg num den)
  omega

section InRange

variable (hden : 0 < den) (h : den ≤ num * 2 ^ 126) (hr : roundMag rnd neg num den < 0x7F800000)
include hden h hr

/-- The rounded magnitude is the neighbour that was taken. -/
theorem fpMag_rounded :
    fpMag (fpPack neg (roundMag rnd neg num den)) * den =
      roundUnit num den * fpQuot num den + if upOf rnd neg num den = true then roundUnit num den else 0 := by
  obtain ⟨hlow, hhigh⟩ := significand_range (rnd := rnd) (neg := neg) hden h
  rw [roundMag_eq] at hr ⊢
  rw [(fpPack_significand hlow hhigh (by omega)).1, roundUnit]
  cases upOf rnd neg num den <;> simp <;> ring

/-- The rounded number is normalized. -/
theorem fpExp_rounded_range :
    1 ≤ fpExp (fpPack neg (roundMag rnd neg num den)) ∧ fpExp (fpPack neg (roundMag rnd neg num den)) ≤ 254 := by
  obtain ⟨hlow, -⟩ := significand_range (rnd := rnd) (neg := neg) hden h
  rw [fpExp_fpPack (by omega)]
  rw [roundMag_eq] at hr ⊢
  omega

/-- A unit of the last place of the rounded number is that of the exact magnitude, or twice that where the rounding carried into
the next power of two. -/
theorem unit_of_rounded :
    den * 2 ^ (fpExp (fpPack neg (roundMag rnd neg num den)) - 1) = roundUnit num den ∨
      (upOf rnd neg num den = true ∧
        den * 2 ^ (fpExp (fpPack neg (roundMag rnd neg num den)) - 1) = 2 * roundUnit num den) := by
  obtain ⟨hlow, hhigh⟩ := significand_range (rnd := rnd) (neg := neg) hden h
  have hq := (fpQuot_range hden h).2
  rw [roundMag_eq] at hr ⊢
  have hlt : (fpLog num den - 23) * 2 ^ 23 + (fpQuot num den + (upOf rnd neg num den).toNat) < 2 ^ 31 := by omega
  obtain he | ⟨hsig, he⟩ := (fpPack_significand (neg := neg) hlow hhigh hlt).2
  · rw [he, Nat.add_sub_cancel]
    exact .inl rfl
  · right
    rw [he]
    refine ⟨?_, ?_⟩
    · by_contra hup
      rw [Bool.not_eq_true] at hup
      rw [hup, Bool.toNat_false] at hsig
      omega
    · rw [roundUnit, Nat.add_sub_assoc (by decide), Nat.pow_add]
      ring

end InRange

/-- The last bit of the rounded number is that of its significand. -/
theorem lastBit_of_rounded (hr : roundMag rnd neg num den < 0x7F800000) :
    (fpPack neg (roundMag rnd neg num den)).getLsbD 0 =
      decide ((fpQuot num den + (upOf rnd neg num den).toNat) % 2 = 1) := by
  rw [getLsbD_fpPack (by omega), decide_eq_decide, roundMag_eq]
  omega


/-- A finish that does not overflow, of a magnitude of at least 2^-126, delivers the rounded number. -/
theorem fpFinish_of_no_overflow {f : Fpsr} (h : den ≤ num * 2 ^ 126) (hco : (fpFinish f rnd neg num den).causes.co = false) :
    roundMag rnd neg num den < 0x7F800000 ∧
    fpFinish f rnd neg num den =
      { causes := if fpRem num den = 0 then FpCauses.none else ixct, value := fpPack neg (roundMag rnd neg num den) } := by
  by_cases ho : 0x7F800000 ≤ roundMag rnd neg num den
  · rw [fpFinish_of_overflow f rnd neg (by omega) ho] at hco
    cases heo : f.eo <;> simp [heo, ovf, ixct, FpCauses.union] at hco
  · exact ⟨by omega, fpFinish_of_normal f rnd neg (by omega) ho⟩

/-! ### What the neighbour that is taken says of the exact value (R323) -/

section Neighbours

variable {want got u unit q r : Nat} {up : Bool} (hexact : want * 2 ^ 23 = u * q * 2 ^ 23 + r) (hrem : r < u * 2 ^ 23)
  (hgot : got = u * q + if up = true then u else 0) (hunit : unit = u ∨ (up = true ∧ unit = 2 * u))
include hexact hgot

theorem le_exact_of_not_up (hup : up = false) : got ≤ want := by
  subst hup
  rw [if_neg Bool.false_ne_true] at hgot
  omega

include hrem

/-- Where whatever is left over is rounded up, the rounded magnitude is not less than the exact one. -/
theorem exact_le_of_up (hup : up = true ↔ r ≠ 0) : want ≤ got := by
  cases up
  · rw [if_neg Bool.false_ne_true] at hgot
    simp only [Bool.false_eq_true, false_iff, not_not] at hup
    omega
  · rw [if_pos rfl] at hgot
    omega

/-- The rounded magnitude is the exact one where nothing is left over. -/
theorem eq_exact_iff (hup : r = 0 → up = false) : got = want ↔ r = 0 := by
  cases up
  · rw [if_neg Bool.false_ne_true] at hgot
    omega
  · rw [if_pos rfl] at hgot
    have hr : r ≠ 0 := fun h0 => Bool.noConfusion (hup h0)
    omega

include hunit

/-- The rounded magnitude is less than a unit away. -/
theorem within_unit (hup : r = 0 → up = false) : got < want + unit ∧ want < got + unit := by
  cases up
  · rw [if_neg Bool.false_ne_true] at hgot
    omega
  · rw [if_pos rfl] at hgot
    have hr : r ≠ 0 := fun h0 => Bool.noConfusion (hup h0)
    omega

/-- To nearest it is at most half a unit away, and where it is half a unit away it is the even neighbour. -/
theorem within_half_unit (hup : up = true ↔ u * 2 ^ 23 < 2 * r ∨ (2 * r = u * 2 ^ 23 ∧ q % 2 = 1)) :
    2 * got ≤ 2 * want + unit ∧ 2 * want ≤ 2 * got + unit ∧
    (2 * got = 2 * want + unit ∨ 2 * want = 2 * got + unit → (q + up.toNat) % 2 = 0) := by
  cases up
  · rw [if_neg Bool.false_ne_true] at hgot
    rw [Bool.toNat_false]
    simp only [Bool.false_eq_true, false_iff] at hup
    omega
  · rw [if_pos rfl] at hgot
    rw [Bool.toNat_true]
    simp only [true_iff] at hup
    omega

end Neighbours

/-- Settles O45: the finish delivers the neighbour that `roundsUp` takes. -/
theorem roundedResultsBracketTheExactValue : Obligations.RoundedResultsBracketTheExactValue := by
  intro f rnd neg num den hden h hco
  obtain ⟨hr, ho⟩ := fpFinish_of_no_overflow h hco
  have hexact := exact_eq_fpQuot_add_fpRem hden h
  have hrem := fpRem_lt hden h
  have hgot := fpMag_rounded hden h hr
  have hunit := unit_of_rounded hden h hr
  obtain ⟨hlow, hhigh⟩ := fpExp_rounded_range hden h hr
  have hup : upOf rnd neg num den =
      roundsUp rnd neg (fpQuot num den) (fpRem num den) (roundUnit num den * 2 ^ 23) := by rw [upOf, fpScale_eq hden h]
  have hkeep : fpRem num den = 0 → upOf rnd neg num den = false := fun h0 => by
    rw [hup, h0, roundsUp_exact (Nat.mul_pos (roundUnit_pos hden) (by decide))]
  have heq := eq_exact_iff hexact hrem hgot hkeep
  obtain ⟨habove, hbelow⟩ := within_unit hexact hrem hgot hunit hkeep
  simp only [ho]
  refine ⟨fpSign_fpPack (by omega), hlow, hhigh, ?_, habove, hbelow, ?_, ?_, ?_, ?_, ?_⟩
  · simp only [ne_eq, heq]
    by_cases h0 : fpRem num den = 0 <;> simp [h0, ixct]
  · rintro rfl
    exact le_exact_of_not_up hexact hgot (hup.trans roundsUp_zero)
  · rintro rfl
    cases neg
    · exact exact_le_of_up hexact hrem hgot (by rw [hup, roundsUp_plusInf_iff, eq_self, true_and])
    · exact le_exact_of_not_up hexact hgot hup
  · rintro rfl
    cases neg
    · exact le_exact_of_not_up hexact hgot hup
    · exact exact_le_of_up hexact hrem hgot (by rw [hup, roundsUp_minusInf_iff, eq_self, true_and])
  · rintro rfl
    obtain ⟨habove, hbelow, -⟩ := within_half_unit hexact hrem hgot hunit (by rw [hup, roundsUp_nearest_iff])
    exact ⟨habove, hbelow⟩
  · rintro rfl htie
    obtain ⟨-, -, heven⟩ := within_half_unit hexact hrem hgot hunit (by rw [hup, roundsUp_nearest_iff])
    rw [lastBit_of_rounded hr, heven htie]
    rfl

end Sys2Proof.Machine
end

section
/-! PROOFS. How the FPU operations end (47_float_arith.md R321, R326, R327, R335): which sets of exceptions enter FPE, what an
operation leaves where it does not, and which operations detect UIPL. -/

namespace Sys2Proof.Machine

variable {s t u : State} {i : Instr} {d : Reg} {o : FpOutcome} {f : Fpsr}

/-! ### Sets of exceptions -/

@[simp] theorem triggers_none (f : Fpsr) : f.triggers FpCauses.none = false := by simp [Fpsr.triggers]

@[simp] theorem triggers_uipl (f : Fpsr) : f.triggers uipl = true := by simp [Fpsr.triggers, uipl]

@[simp] theorem triggers_udf (f : Fpsr) : f.triggers udf = f.eu := by simp [Fpsr.triggers, udf]

@[simp] theorem triggers_div0 (f : Fpsr) : f.triggers div0 = f.ez := by simp [Fpsr.triggers, div0]

@[simp] theorem triggers_ivld (f : Fpsr) : f.triggers ivld = f.ev := by simp [Fpsr.triggers, ivld]

@[simp] theorem triggers_union (f : Fpsr) (e g : FpCauses) : f.triggers (e.union g) = (f.triggers e || f.triggers g) := by
  simp only [Fpsr.triggers, FpCauses.union, Bool.and_or_distrib_right]
  ac_rfl

@[simp] theorem union_none (e : FpCauses) : e.union FpCauses.none = e := by simp [FpCauses.union]

/-- With every exception masked only UIPL ends in EIT processing. -/
theorem triggers_of_masked (hx : f.ex = false) (hu : f.eu = false) (hz : f.ez = false) (ho : f.eo = false) (hv : f.ev = false)
    (e : FpCauses) : f.triggers e = e.ce := by
  simp [Fpsr.triggers, hx, hu, hz, ho, hv]

/-! ### How an operation ends -/

theorem fpEnd_completes (s : State) (d : Reg) (o : FpOutcome) : ∃ t : State, s.fpEnd d o = .next t := by
  unfold State.fpEnd
  split
  · exact ⟨_, rfl⟩
  · exact ⟨_, rfl⟩

/-- The cause bits record what was detected, however the operation ends. -/
theorem fpEnd_cause (h : s.fpEnd d o = .next t) : t.fpsr.cause = o.causes := by
  obtain ⟨-, rfl⟩ | ⟨-, rfl⟩ := fpEnd_cases h
  · rfl
  · simp [Fpsr.raiseFlags]

theorem fpEnd_reg (h : s.fpEnd d o = .next t) (ht : s.fpsr.triggers o.causes = false) : t.reg d = o.value := by
  obtain ⟨htrig, -⟩ | ⟨-, rfl⟩ := fpEnd_cases h
  · rw [ht] at htrig
    cases htrig
  · simp

/-- The two endings, and what separates them. -/
theorem ends_of_fpEnd (h : exec i s = s.fpEnd d o) :
    (s.fpsr.triggers o.causes = false →
      WritesReg i s d o.value 4 [.fpsr] ∧ Completes i s fun t => t.fpsr = fpsrAfter s.fpsr o.causes) ∧
    (s.fpsr.triggers o.causes = true →
      exec i s = .next (({ s with fpsr := { s.fpsr with cause := o.causes } } : State).eitEntry .fpe)) :=
  ⟨fun ht => ⟨writesReg_of_fpEnd h ht, fpsr_of_fpEnd h ht⟩, fpe_of_fpEnd h⟩

/-- An operation that detects nothing delivers its value. -/
theorem delivers_of_fpEnd {v : Word} (h : exec i s = s.fpEnd d { causes := FpCauses.none, value := v }) :
    WritesReg i s d v 4 [.fpsr] ∧ Completes i s fun t => t.fpsr = fpsrAfter s.fpsr FpCauses.none :=
  (ends_of_fpEnd h).1 (triggers_none _)

/-- An invalid operation delivers its value with EV = 0 and enters FPE with EV = 1. -/
theorem ends_of_invalid {v : Word} (h : exec i s = s.fpEnd d { causes := ivld, value := v }) :
    (s.fpsr.ev = false →
      WritesReg i s d v 4 [.fpsr] ∧ Completes i s fun t => t.fpsr = fpsrAfter s.fpsr ivld) ∧
    (s.fpsr.ev = true →
      exec i s = .next (({ s with fpsr := { s.fpsr with cause := ivld } } : State).eitEntry .fpe)) := by
  rw [← triggers_ivld]
  exact ends_of_fpEnd h

/-- The ending does not look at more than the FPSR, and where it enters FPE the destination stays. -/
theorem fpEnd_congr (hf : u.fpsr = s.fpsr) (hr : u.reg d = s.reg d) (h : s.fpEnd d o = .next t) :
    ∃ v : State, u.fpEnd d o = .next v ∧ v.reg d = t.reg d ∧ v.fpsr = t.fpsr := by
  obtain ⟨v, hv⟩ := fpEnd_completes u d o
  refine ⟨v, hv, ?_⟩
  obtain ⟨ht, rfl⟩ | ⟨ht, rfl⟩ := fpEnd_cases h
  · obtain ⟨-, rfl⟩ | ⟨ht', -⟩ := fpEnd_cases hv
    · exact ⟨hr, by rw [eitEntry_fpsr, eitEntry_fpsr, hf]⟩
    · rw [hf, ht] at ht'
      cases ht'
  · obtain ⟨ht', -⟩ | ⟨-, rfl⟩ := fpEnd_cases hv
    · rw [hf, ht] at ht'
      cases ht'
    · simp [hf]

/-! ### The arithmetic cases of FADD, FSUB, FMUL and FDIV -/

/-- What an arithmetic case can answer: an invalid operation, a zero or an infinity with no exception or with DIV0, or what the
arithmetic finish does with an exact result. -/
inductive ArithOutcome (f : Fpsr) : FpOutcome → Prop
  | invalid : ArithOutcome f { causes := ivld, value := defaultNan }
  | exact {e : FpCauses} {v : Word} (he : e = FpCauses.none ∨ e = div0) (hv : isZero v = true ∨ isInfinite v = true) :
    ArithOutcome f { causes := e, value := v }
  | finish (rnd : RoundMode) (neg : Bool) (num : Nat) {den : Nat} (hden : 0 < den) :
    ArithOutcome f (fpFinish f rnd neg num den)

theorem arithOutcome_zero (neg : Bool) : ArithOutcome f { causes := FpCauses.none, value := signedZero neg } :=
  .exact (.inl rfl) (.inl (isZero_signedZero neg))

theorem arithOutcome_inf (neg : Bool) : ArithOutcome f { causes := FpCauses.none, value := signedInf neg } :=
  .exact (.inl rfl) (.inr (isInfinite_signedInf neg))

theorem arithOutcome_addCore (f : Fpsr) (a b : Word) : ArithOutcome f (addCore f a b) := by
  unfold addCore
  split
  · exact .invalid
  · split
    · next ha => exact .exact (.inl rfl) (.inr ha)
    · split
      · next hb => exact .exact (.inl rfl) (.inr hb)
      · split
        · exact arithOutcome_zero _
        · exact .finish _ _ _ (Nat.two_pow_pos _)

theorem arithOutcome_mulCore (f : Fpsr) (rnd : RoundMode) (a b : Word) : ArithOutcome f (mulCore f rnd a b) := by
  simp only [mulCore]
  split
  · exact .invalid
  · split
    · exact arithOutcome_inf _
    · split
      · exact arithOutcome_zero _
      · exact .finish _ _ _ (by positivity)

theorem arithOutcome_divCore (f : Fpsr) (a b : Word) : ArithOutcome f (divCore f a b) := by
  simp only [divCore]
  split
  · split
    · exact .invalid
    · exact arithOutcome_inf _
  · split
    · exact arithOutcome_zero _
    · split
      · split
        · exact .invalid
        · exact .exact (.inr rfl) (.inr (isInfinite_signedInf _))
      · next hb =>
        split
        · exact arithOutcome_zero _
        · exact .finish _ _ _ (Nat.pos_of_ne_zero (mt fpMag_eq_zero_iff.mp hb))

/-- No finish is an invalid operation (R328). -/
theorem fpFinish_cv (f : Fpsr) (rnd : RoundMode) (neg : Bool) (num den : Nat) :
    (fpFinish f rnd neg num den).causes.cv = false := by
  have hmem := fpFinish_causes f rnd neg num den
  generalize (fpFinish f rnd neg num den).causes = e at hmem ⊢
  simp only [List.mem_cons, List.not_mem_nil, or_false] at hmem
  obtain rfl | rfl | rfl | rfl | rfl | rfl := hmem
  all_goals rfl

/-- An arithmetic case that detects IVLD delivers the QNaN of R334. -/
theorem ArithOutcome.eq_invalid (h : ArithOutcome f o) (hcv : o.causes.cv = true) :
    o = { causes := ivld, value := defaultNan } := by
  cases h with
  | invalid => rfl
  | exact he => obtain rfl | rfl := he <;> cases hcv
  | finish => rw [fpFinish_cv] at hcv; cases hcv

/-! ### What is detected with DN = 1 (R335) -/

theorem fmaOverflowed_ce (x v : Word) : (fmaOverflowed x v).causes.ce = false := by
  unfold fmaOverflowed
  repeat' split
  all_goals rfl

section NoUipl

variable (hdn : f.dn = true)
include hdn

theorem fpFinish_ce (rnd : RoundMode) (neg : Bool) (num den : Nat) : (fpFinish f rnd neg num den).causes.ce = false := by
  unfold fpFinish
  split
  · simp [hdn, udf]
  · split
    · simp only [ovf, ixct, FpCauses.union]
      split <;> rfl
    · simp only [ixct]
      split <;> rfl

theorem ArithOutcome.ce (h : ArithOutcome f o) : o.causes.ce = false := by
  cases h with
  | invalid => rfl
  | exact he => obtain rfl | rfl := he <;> rfl
  | finish => exact fpFinish_ce hdn ..

theorem fpBinary_ce {core : Word → Word → FpOutcome} (hcore : ∀ a b : Word, ArithOutcome f (core a b)) (a b : Word) :
    (fpBinary f core a b).causes.ce = false := by
  simp only [fpBinary, hdn, Bool.not_true, Bool.and_false, Bool.false_eq_true, if_false]
  split
  · rfl
  · split
    · rfl
    · exact (hcore _ _).ce hdn

theorem fromInt_ce (x : Int) : (fromInt f x).causes.ce = false := by
  unfold fromInt
  split
  · rfl
  · exact fpFinish_ce hdn ..

theorem toInteger_ce (lo hi : Int) (low high x : Word) : (toInteger f lo hi low high x).causes.ce = false := by
  simp only [toInteger, hdn, if_true]
  repeat' split
  all_goals rfl

theorem fpCompare_ce (n : Nat) (invalid : Word → Bool) (a b : Word) : (fpCompare f n invalid a b).causes.ce = false := by
  simp only [fpCompare, hdn, Bool.not_true, Bool.and_false, Bool.false_eq_true, if_false]
  repeat' split
  all_goals rfl

theorem fmaStep2_ce (sub : Bool) (x : Word) (p : FpOutcome) : (fmaStep2 f sub x p).causes.ce = false := by
  simp only [fmaStep2, hdn, Bool.not_true, Bool.and_false, Bool.false_eq_true, if_false]
  split
  · rfl
  · split
    · rfl
    · split
      · rfl
      · split
        · exact fmaOverflowed_ce ..
        · exact (arithOutcome_addCore ..).ce hdn

theorem fmaPrecheck_ce (x : Word) : (fmaPrecheck f x).ce = false := by
  simp only [fmaPrecheck, hdn, Bool.not_true, Bool.and_false, Bool.false_eq_true, if_false]
  split <;> rfl

theorem fmaOutcome_ce (sub : Bool) (x a b : Word) : (fmaOutcome f sub x a b).causes.ce = false := by
  have hstep1 : (fmaStep1 f a b).causes.ce = false := fpBinary_ce hdn (arithOutcome_mulCore f .zero) a b
  simp only [fmaOutcome]
  split
  · simp only [FpCauses.union, hstep1, fmaPrecheck_ce hdn, Bool.or_self]
  · simp only [FpCauses.union, hstep1, fmaStep2_ce hdn, Bool.or_self]

end NoUipl

/-- Each of the twelve ends as R327 says, and with DN = 1 none detects UIPL. -/
theorem exec_fpuOperation {a b : Reg} (hi : i ∈ fpuOperations d a b) :
    ∃ o : FpOutcome, exec i s = s.fpEnd d o ∧ (s.fpsr.dn = true → o.causes.ce = false) := by
  simp only [fpuOperations, List.mem_cons, List.not_mem_nil, or_false] at hi
  obtain rfl | rfl | rfl | rfl | rfl | rfl | rfl | rfl | rfl | rfl | rfl | rfl := hi
  · exact ⟨_, rfl, fun hdn => fpBinary_ce hdn (arithOutcome_addCore _) _ _⟩
  · exact ⟨_, rfl, fun hdn => fpBinary_ce hdn (fun x y => arithOutcome_addCore _ x (negate y)) _ _⟩
  · exact ⟨_, rfl, fun hdn => fpBinary_ce hdn (arithOutcome_mulCore _ _) _ _⟩
  · exact ⟨_, rfl, fun hdn => fpBinary_ce hdn (arithOutcome_divCore _) _ _⟩
  · exact ⟨_, rfl, fun hdn => fmaOutcome_ce hdn ..⟩
  · exact ⟨_, rfl, fun hdn => fmaOutcome_ce hdn ..⟩
  · exact ⟨_, rfl, fun hdn => fpCompare_ce hdn ..⟩
  · exact ⟨_, rfl, fun hdn => fpCompare_ce hdn ..⟩
  · exact ⟨_, rfl, fun hdn => fromInt_ce hdn _⟩
  · exact ⟨_, rfl, fun hdn => fromInt_ce hdn _⟩
  · exact ⟨_, rfl, fun hdn => toInteger_ce hdn ..⟩
  · exact ⟨_, rfl, fun hdn => toInteger_ce hdn ..⟩

/-- Settles O43: with every exception masked only UIPL enters FPE, and with DN = 1 nothing detects it. -/
theorem maskedFpuOperationsComplete : Obligations.MaskedFpuOperationsComplete := by
  intro s d a b hdn hx hu hz ho hv i hi
  obtain ⟨o, h, hce⟩ := exec_fpuOperation (s := s) hi
  have ht : s.fpsr.triggers o.causes = false := (triggers_of_masked hx hu hz ho hv _).trans (hce hdn)
  obtain ⟨t, hnext, -, hregs, hkeeps, hpc⟩ := writesReg_of_fpEnd h ht
  obtain ⟨t', hnext', hfpsr⟩ := fpsr_of_fpEnd h ht
  obtain rfl : t = t' := by
    rw [hnext] at hnext'
    cases hnext'
    rfl
  have hcause : t.fpsr.cause = o.causes := fpEnd_cause (h.symm.trans hnext)
  exact ⟨t, hnext, hcause ▸ hfpsr, hcause ▸ hce hdn, hregs, hkeeps, hpc⟩

end Sys2Proof.Machine
end

section
/-! PROOFS. FADD, FSUB, FMUL and FDIV (47_float_arith.md R322, R325, R331 to R334, R340 to R347).

Each ends as R327 says with what `fpBinary` answers for its arithmetic case. So there is one lemma for each class of operands, and
one for each row of the tables of the arithmetic cases; a statement says which of them meet. -/

namespace Sys2Proof.Machine

variable {s u : State} {i : Instr} {d ra rb : Reg} {f : Fpsr} {core : Word → Word → FpOutcome} {a b : Word}

/-! ### Two operands (R325, R334) -/

theorem fpBinary_of_snan_right (hb : isSnan b = true) : fpBinary f core a b = { causes := ivld, value := quiet b } := by
  simp [fpBinary, hb]

theorem fpBinary_of_snan_left (ha : isSnan a = true) (hb : isSnan b = false) :
    fpBinary f core a b = { causes := ivld, value := quiet a } := by
  simp [fpBinary, ha, hb]

theorem fpBinary_of_qnan_right (ha : isSnan a = false) (hb : isQnan b = true) :
    fpBinary f core a b = { causes := FpCauses.none, value := b } := by
  simp [fpBinary, ha, hb, isSnan_of_qnan hb]

theorem fpBinary_of_qnan_left (ha : isQnan a = true) (hb : isNan b = false) :
    fpBinary f core a b = { causes := FpCauses.none, value := a } := by
  simp [fpBinary, ha, isSnan_of_qnan ha, isSnan_of_not_nan hb, isQnan_of_not_nan hb]

theorem fpBinary_of_denormal (ha : isNan a = false) (hb : isNan b = false)
    (hd : ((isDenormal a || isDenormal b) && !f.dn) = true) :
    fpBinary f core a b = { causes := uipl, value := signedZero false } := by
  simp [fpBinary, isSnan_of_not_nan ha, isSnan_of_not_nan hb, isQnan_of_not_nan ha, isQnan_of_not_nan hb, hd]

/-- Operands that are no NaN and, with DN = 0, not denormalized. -/
theorem fpBinary_of_admitted (ha : isNan a = false) (hb : isNan b = false)
    (hd : f.dn = false → isDenormal a = false ∧ isDenormal b = false) :
    fpBinary f core a b = core (flush a) (flush b) := by
  apply fpBinary_of_numbers f core ha hb
  cases hdn : f.dn
  · simp [hd hdn]
  · simp

theorem fpBinary_of_two_numbers (ha : IsNumber a) (hb : IsNumber b) : fpBinary f core a b = core a b := by
  rw [fpBinary_of_admitted (isNan_of_number ha) (isNan_of_number hb) fun _ =>
    ⟨isDenormal_of_number ha, isDenormal_of_number hb⟩, flush_of_number ha, flush_of_number hb]

theorem fpBinary_comm_of_left (hcore : ∀ x y : Word, core x y = core y x) (ha : isNan a = false) :
    fpBinary f core a b = fpBinary f core b a := by
  obtain hb | hb | hb := nan_cases b
  · rw [fpBinary_of_snan_right hb, fpBinary_of_snan_left hb (isSnan_of_not_nan ha)]
  · rw [fpBinary_of_qnan_right (isSnan_of_not_nan ha) hb, fpBinary_of_qnan_left hb ha]
  · cases hd : (isDenormal a || isDenormal b) && !f.dn
    · rw [fpBinary_of_numbers f core ha hb hd, fpBinary_of_numbers f core hb ha (by rwa [Bool.or_comm]), hcore]
    · rw [fpBinary_of_denormal ha hb hd, fpBinary_of_denormal hb ha (by rwa [Bool.or_comm])]

/-- The order of the operands matters for two NaNs only, where the arithmetic case is commutative. -/
theorem fpBinary_comm (hcore : ∀ x y : Word, core x y = core y x) (h : ¬ (isNan a = true ∧ isNan b = true)) :
    fpBinary f core a b = fpBinary f core b a := by
  cases ha : isNan a
  · exact fpBinary_comm_of_left hcore ha
  · have hb : isNan b = false := by simpa [ha] using h
    exact (fpBinary_comm_of_left hcore hb).symm

/-- With DN = 1 an operand and the flushed operand give the same (R322). -/
theorem fpBinary_flush (hdn : f.dn = true) (a b : Word) : fpBinary f core (flush a) (flush b) = fpBinary f core a b := by
  obtain hb | hb | hb := nan_cases b
  · rw [flush_of_nan (isNan_of_snan hb), fpBinary_of_snan_right hb, fpBinary_of_snan_right hb]
  · rw [flush_of_nan (isNan_of_qnan hb)]
    cases ha : isSnan a
    · rw [fpBinary_of_qnan_right ha hb, fpBinary_of_qnan_right ((isSnan_flush a).trans ha) hb]
    · rw [flush_of_nan (isNan_of_snan ha)]
  · have hb' : isNan (flush b) = false := (isNan_flush b).trans hb
    obtain ha | ha | ha := nan_cases a
    · rw [flush_of_nan (isNan_of_snan ha), fpBinary_of_snan_left ha (isSnan_of_not_nan hb),
        fpBinary_of_snan_left ha (isSnan_of_not_nan hb')]
    · rw [flush_of_nan (isNan_of_qnan ha), fpBinary_of_qnan_left ha hb, fpBinary_of_qnan_left ha hb']
    · have hdn' : ∀ p : Prop, f.dn = false → p := fun p h => by rw [hdn] at h; cases h
      rw [fpBinary_of_admitted ha hb (hdn' _), fpBinary_of_admitted ((isNan_flush a).trans ha) hb' (hdn' _), flush_flush,
        flush_flush]

/-- A second operand that is no NaN, with its sign inverted. -/
theorem fpBinary_negate_right (hb : isNan b = false) :
    fpBinary f core a (negate b) = fpBinary f (fun x y => core x (negate y)) a b := by
  simp [fpBinary, isSnan_of_not_nan hb, isQnan_of_not_nan hb]

/-! ### The arithmetic case of FADD and FSUB (R340 to R343) -/

theorem addCore_of_opposite_infinities (ha : isInfinite a = true) (hb : isInfinite b = true) (hs : fpSign a ≠ fpSign b) :
    addCore f a b = { causes := ivld, value := defaultNan } := by
  simp [addCore, ha, hb, hs]

theorem addCore_of_infinite_left (ha : isInfinite a = true) (hs : isInfinite b = true → fpSign a = fpSign b) :
    addCore f a b = { causes := FpCauses.none, value := a } := by
  cases hb : isInfinite b
  · simp [addCore, ha, hb]
  · simp [addCore, ha, hs hb]

theorem addCore_of_infinite_right (hb : isInfinite b = true) (hs : isInfinite a = true → fpSign a = fpSign b) :
    addCore f a b = { causes := FpCauses.none, value := b } := by
  cases ha : isInfinite a
  · simp [addCore, ha, hb]
  · rw [addCore_of_infinite_left ha fun _ => hs ha, eq_of_infinite ha hb (hs ha)]

theorem addCore_of_zero_sum (ha : isInfinite a = false) (hb : isInfinite b = false) (h0 : fpVal a + fpVal b = 0) :
    addCore f a b = { causes := FpCauses.none, value := signedZero (zeroSumSign f a b) } := by
  simp [addCore, ha, hb, h0]

theorem addCore_of_sum (ha : isInfinite a = false) (hb : isInfinite b = false) (h0 : fpVal a + fpVal b ≠ 0) :
    addCore f a b =
      fpFinish f f.rm (decide (fpVal a + fpVal b < 0)) (fpVal a + fpVal b).natAbs (2 ^ 149) := by
  simp [addCore, ha, hb, h0]

theorem zeroSumSign_comm (f : Fpsr) (a b : Word) : zeroSumSign f a b = zeroSumSign f b a := by
  rw [zeroSumSign, zeroSumSign]
  by_cases hs : fpSign a = fpSign b
  · rw [if_pos hs, if_pos hs.symm, hs]
  · rw [if_neg hs, if_neg (Ne.symm hs)]

theorem addCore_comm (f : Fpsr) (a b : Word) : addCore f a b = addCore f b a := by
  cases ha : isInfinite a
  · cases hb : isInfinite b
    · by_cases h0 : fpVal a + fpVal b = 0
      · rw [addCore_of_zero_sum ha hb h0, addCore_of_zero_sum hb ha (by rwa [Int.add_comm]), zeroSumSign_comm]
      · rw [addCore_of_sum ha hb h0, addCore_of_sum hb ha (by rwa [Int.add_comm]), Int.add_comm]
    · have hs : isInfinite a = true → fpSign b = fpSign a := fun h => by simp [ha] at h
      rw [addCore_of_infinite_left hb hs, addCore_of_infinite_right hb fun h => (hs h).symm]
  · cases hb : isInfinite b
    · have hs : isInfinite b = true → fpSign a = fpSign b := fun h => by simp [hb] at h
      rw [addCore_of_infinite_left ha hs, addCore_of_infinite_right ha fun h => (hs h).symm]
    · by_cases hs : fpSign a = fpSign b
      · rw [eq_of_infinite ha hb hs]
      · rw [addCore_of_opposite_infinities ha hb hs, addCore_of_opposite_infinities hb ha (Ne.symm hs)]

/-! ### The arithmetic case of FMUL (R344, R345) -/

section

variable {rnd : RoundMode}

theorem mulCore_comm (f : Fpsr) (rnd : RoundMode) (a b : Word) : mulCore f rnd a b = mulCore f rnd b a := by
  have hinvalid : (isZero a && isInfinite b || isInfinite a && isZero b) =
      (isZero b && isInfinite a || isInfinite b && isZero a) := by
    rw [Bool.or_comm, Bool.and_comm (isInfinite a), Bool.and_comm (isZero a)]
  simp only [mulCore]
  rw [hinvalid, Bool.or_comm (isInfinite a), Bool.or_comm (isZero a), bne_comm, Nat.mul_comm]

theorem mulCore_of_zero_times_infinity (ha : isZero a = true) (hb : isInfinite b = true) :
    mulCore f rnd a b = { causes := ivld, value := defaultNan } := by
  simp [mulCore, ha, hb]

theorem mulCore_of_infinity_times_zero (ha : isInfinite a = true) (hb : isZero b = true) :
    mulCore f rnd a b = { causes := ivld, value := defaultNan } := by
  simp [mulCore, ha, hb]

theorem mulCore_of_infinite (hi : isInfinite a = true ∨ isInfinite b = true) (ha : isZero a = false) (hb : isZero b = false) :
    mulCore f rnd a b = { causes := FpCauses.none, value := signedInf (fpSign a != fpSign b) } := by
  simp [mulCore, hi, ha, hb]

theorem mulCore_of_zero (ha : isInfinite a = false) (hb : isInfinite b = false) (h0 : isZero a = true ∨ isZero b = true) :
    mulCore f rnd a b = { causes := FpCauses.none, value := signedZero (fpSign a != fpSign b) } := by
  simp [mulCore, ha, hb, h0]

theorem mulCore_of_product (ha : isInfinite a = false) (hb : isInfinite b = false)
    (h0 : ¬ (isZero a = true ∨ isZero b = true)) :
    mulCore f rnd a b = fpFinish f rnd (fpSign a != fpSign b) (fpMag a * fpMag b) (2 ^ 298) := by
  simp only [mulCore]
  rw [if_neg (by simp [ha, hb]), if_neg (by simp [ha, hb]), if_neg (by simpa using h0)]

end

/-! ### The arithmetic case of FDIV (R332, R346, R347) -/

theorem divCore_of_infinities (ha : isInfinite a = true) (hb : isInfinite b = true) :
    divCore f a b = { causes := ivld, value := defaultNan } := by
  simp [divCore, ha, hb]

theorem divCore_of_infinite_dividend (ha : isInfinite a = true) (hb : isInfinite b = false) :
    divCore f a b = { causes := FpCauses.none, value := signedInf (fpSign a != fpSign b) } := by
  simp [divCore, ha, hb]

theorem divCore_of_infinite_divisor (ha : isInfinite a = false) (hb : isInfinite b = true) :
    divCore f a b = { causes := FpCauses.none, value := signedZero (fpSign a != fpSign b) } := by
  simp [divCore, ha, hb]

section

variable (ha : isInfinite a = false)
include ha

theorem divCore_of_zeros (ha0 : isZero a = true) (hb0 : isZero b = true) :
    divCore f a b = { causes := ivld, value := defaultNan } := by
  simp [divCore, ha, isInfinite_of_number (.inl hb0), ha0, hb0]

theorem divCore_by_zero (ha0 : isZero a = false) (hb0 : isZero b = true) :
    divCore f a b = { causes := div0, value := signedInf (fpSign a != fpSign b) } := by
  simp [divCore, ha, isInfinite_of_number (.inl hb0), ha0, hb0]

theorem divCore_of_zero_dividend (hb : isInfinite b = false) (ha0 : isZero a = true) (hb0 : isZero b = false) :
    divCore f a b = { causes := FpCauses.none, value := signedZero (fpSign a != fpSign b) } := by
  simp [divCore, ha, hb, ha0, hb0]

theorem divCore_of_quotient (hb : isInfinite b = false) (ha0 : isZero a = false) (hb0 : isZero b = false) :
    divCore f a b = fpFinish f f.rm (fpSign a != fpSign b) (fpMag a) (fpMag b) := by
  simp [divCore, ha, hb, ha0, hb0]

end

/-! ### NaNs (R325, R333, R334) -/

/-- Each of the four ends with what `fpBinary` answers for its arithmetic case. -/
theorem exec_arithmetic (hi : i ∈ [Instr.fadd d ra rb, .fsub d ra rb, .fmul d ra rb, .fdiv d ra rb]) :
    ∃ core : Word → Word → FpOutcome, (∀ x y : Word, ArithOutcome s.fpsr (core x y)) ∧
      exec i s = s.fpEnd d (fpBinary s.fpsr core (s.reg ra) (s.reg rb)) := by
  simp only [List.mem_cons, List.not_mem_nil, or_false] at hi
  obtain rfl | rfl | rfl | rfl := hi
  · exact ⟨_, arithOutcome_addCore _, rfl⟩
  · exact ⟨_, fun x y => arithOutcome_addCore _ x (negate y), rfl⟩
  · exact ⟨_, arithOutcome_mulCore _ _, rfl⟩
  · exact ⟨_, arithOutcome_divCore _, rfl⟩

/-- On operands that are no NaN an invalid operation delivers the QNaN of R334. -/
theorem fpBinary_eq_invalid (hcore : ∀ x y : Word, ArithOutcome f (core x y)) (ha : isNan a = false) (hb : isNan b = false)
    (hcv : (fpBinary f core a b).causes.cv = true) :
    fpBinary f core a b = { causes := ivld, value := defaultNan } := by
  cases hd : (isDenormal a || isDenormal b) && !f.dn
  · rw [fpBinary_of_numbers f core ha hb hd] at hcv ⊢
    exact (hcore _ _).eq_invalid hcv
  · rw [fpBinary_of_denormal ha hb hd] at hcv
    cases hcv

/-- Settles O48: the rows of the table are the NaN cases of `fpBinary`, and no arithmetic case has another NaN. -/
theorem nanOperandsDeliverTheQnanOfTheTable : Obligations.NanOperandsDeliverTheQnanOfTheTable := by
  rintro s d ra rb _ _ rfl rfl i hi
  obtain ⟨core, hcore, h⟩ := exec_arithmetic (s := s) hi
  refine ⟨fun ha hb hev => ?_, fun hb hev => ?_, fun hsnan hev => ?_, fun ha hb => ?_, fun hb ha hb' => ?_,
    fun ha hb hev t ht hcv => ?_⟩
  · rw [fpBinary_of_snan_left ha hb] at h
    exact (ends_of_invalid h).1 hev
  · rw [fpBinary_of_snan_right hb] at h
    exact (ends_of_invalid h).1 hev
  · cases hb : isSnan (s.reg rb)
    · have ha : isSnan (s.reg ra) = true := by simpa [hb] using hsnan
      rw [fpBinary_of_snan_left ha hb] at h
      exact (ends_of_invalid h).2 hev
    · rw [fpBinary_of_snan_right hb] at h
      exact (ends_of_invalid h).2 hev
  · rw [fpBinary_of_qnan_right ha hb] at h
    exact delivers_of_fpEnd h
  · rw [fpBinary_of_qnan_left ha (isNan_eq_false_iff.mpr ⟨hb, hb'⟩)] at h
    exact delivers_of_fpEnd h
  · rw [h] at ht
    rw [fpEnd_cause ht] at hcv
    rw [fpBinary_eq_invalid hcore ha hb hcv] at ht
    exact fpEnd_reg ht ((triggers_ivld _).trans hev)

/-- Operands that are no NaN and, with DN = 0, not denormalized: the operation ends with its arithmetic case. -/
theorem exec_of_admitted (h : exec i s = s.fpEnd d (fpBinary s.fpsr core (s.reg ra) (s.reg rb)))
    (ha : isNan (s.reg ra) = false) (hb : isNan (s.reg rb) = false)
    (hd : s.fpsr.dn = false → isDenormal (s.reg ra) = false ∧ isDenormal (s.reg rb) = false) :
    exec i s = s.fpEnd d (core (flush (s.reg ra)) (flush (s.reg rb))) := by
  rw [h, fpBinary_of_admitted ha hb hd]

/-! ### Infinite operands (R333, R341, R343, R345, R347) -/

/-- Settles O49: a row of the tables for each case. -/
theorem infiniteOperandsFollowTheTables : Obligations.InfiniteOperandsFollowTheTables := by
  rintro s d ra rb a b ha hb hna hnb hden neg i rfl
  subst ha hb
  have hadd := exec_of_admitted (i := .fadd d ra rb) (d := d) (core := addCore s.fpsr) rfl hna hnb hden
  have hsub := exec_of_admitted (i := .fsub d ra rb) (d := d) (core := subCore s.fpsr) rfl hna hnb hden
  have hmul := exec_of_admitted (i := .fmul d ra rb) (d := d) (core := mulCore s.fpsr s.fpsr.rm) rfl hna hnb hden
  have hdiv := exec_of_admitted (i := .fdiv d ra rb) (d := d) (core := divCore s.fpsr) rfl hna hnb hden
  rw [subCore] at hsub
  refine ⟨?_, ?_⟩
  · rintro v (⟨rfl, hia, hs, rfl⟩ | ⟨rfl, hib, hs, rfl⟩ | ⟨rfl, hia, hs, rfl⟩ | ⟨rfl, hib, hs, rfl⟩ | ⟨rfl, hinf, rfl⟩ |
      ⟨rfl, hia, hib, rfl⟩ | ⟨rfl, hia, hib, rfl⟩)
    · rw [flush_of_infinite hia, addCore_of_infinite_left hia (by simpa using hs)] at hadd
      exact delivers_of_fpEnd hadd
    · rw [flush_of_infinite hib, addCore_of_infinite_right hib (by simpa using hs)] at hadd
      exact delivers_of_fpEnd hadd
    · rw [flush_of_infinite hia, addCore_of_infinite_left hia (by simpa [Bool.eq_not] using hs)] at hsub
      exact delivers_of_fpEnd hsub
    · rw [flush_of_infinite hib, addCore_of_infinite_right (by simpa using hib) (by simpa [Bool.eq_not] using hs)] at hsub
      exact delivers_of_fpEnd hsub
    · have hexp : (isInfinite (s.reg ra) = true ∨ isInfinite (s.reg rb) = true) ∧
          fpExp (s.reg ra) ≠ 0 ∧ fpExp (s.reg rb) ≠ 0 := by
        obtain ⟨hia, hib | heb⟩ | ⟨hib, hea⟩ := hinf
        · exact ⟨.inl hia, fpExp_of_infinite hia, fpExp_of_infinite hib⟩
        · exact ⟨.inl hia, fpExp_of_infinite hia, by omega⟩
        · exact ⟨.inr hib, by omega, fpExp_of_infinite hib⟩
      obtain ⟨hi, hea, heb⟩ := hexp
      rw [mulCore_of_infinite (by simpa using hi) (isZero_flush_of_exp hea) (isZero_flush_of_exp heb)] at hmul
      simp only [fpSign_flush] at hmul
      exact delivers_of_fpEnd hmul
    · rw [divCore_of_infinite_dividend (by simpa using hia) (by simpa using hib)] at hdiv
      simp only [fpSign_flush] at hdiv
      exact delivers_of_fpEnd hdiv
    · rw [divCore_of_infinite_divisor (by simpa using hia) (by simpa using hib)] at hdiv
      simp only [fpSign_flush] at hdiv
      exact delivers_of_fpEnd hdiv
  · rintro (⟨rfl, hia, hib, hs⟩ | ⟨rfl, hia, hib, hs⟩ | ⟨rfl, ⟨hia, heb⟩ | ⟨hea, hib⟩⟩ | ⟨rfl, hia, hib⟩)
    · rw [addCore_of_opposite_infinities (by simpa using hia) (by simpa using hib) (by simpa using hs)] at hadd
      exact ends_of_invalid hadd
    · rw [addCore_of_opposite_infinities (by simpa using hia) (by simpa using hib) (by simpa using hs)] at hsub
      exact ends_of_invalid hsub
    · rw [mulCore_of_infinity_times_zero (by simpa using hia) (isZero_flush_iff.mpr heb)] at hmul
      exact ends_of_invalid hmul
    · rw [mulCore_of_zero_times_infinity (isZero_flush_iff.mpr hea) (by simpa using hib)] at hmul
      exact ends_of_invalid hmul
    · rw [divCore_of_infinities (by simpa using hia) (by simpa using hib)] at hdiv
      exact ends_of_invalid hdiv

/-! ### Division by zero (R332) -/

theorem isZero_flush_of_zero_or_denormal (h : isZero a = true ∨ isDenormal a = true ∧ f.dn = true) :
    isZero (flush a) = true := by
  obtain h | ⟨h, -⟩ := h
  · exact isZero_flush_iff.mpr (isZero_iff.mp h).1
  · exact isZero_flush_iff.mpr (fpExp_of_denormal h)

theorem isDenormal_of_zero_or_denormal (h : isZero a = true ∨ isDenormal a = true ∧ f.dn = true) (hdn : f.dn = false) :
    isDenormal a = false := by
  obtain h | ⟨-, hdn'⟩ := h
  · exact isDenormal_of_number (.inl h)
  · rw [hdn] at hdn'
    cases hdn'

/-- Settles O50: the dividend decides which row of the table it is. -/
theorem divisionByZeroFollowsTheDividend : Obligations.DivisionByZeroFollowsTheDividend := by
  rintro s d ra rb _ _ rfl rfl hb inf rfl
  have hzb : isZero (flush (s.reg rb)) = true := isZero_flush_of_zero_or_denormal hb
  have heb : fpExp (s.reg rb) = 0 := isZero_flush_iff.mp hzb
  have hfb : isInfinite (flush (s.reg rb)) = false := isInfinite_of_number (.inl hzb)
  have hdiv (ha : isNan (s.reg ra) = false) (hdena : s.fpsr.dn = false → isDenormal (s.reg ra) = false) :=
    exec_of_admitted (i := .fdiv d ra rb) (d := d) (core := divCore s.fpsr) rfl ha
      (isNan_of_exp (by omega)) fun hdn => ⟨hdena hdn, isDenormal_of_zero_or_denormal hb hdn⟩
  rw [← signedInf_bne]
  refine ⟨fun hlow hhigh => ?_, fun ha => ?_, fun ha => ?_⟩
  · have h := hdiv (isNan_of_exp (by omega)) fun _ => isDenormal_of_exp (by omega)
    rw [divCore_by_zero ((isInfinite_flush _).trans (isInfinite_of_exp (by omega))) (isZero_flush_of_exp (by omega)) hzb] at h
    simp only [fpSign_flush] at h
    rw [← triggers_div0]
    exact ends_of_fpEnd h
  · have hza : isZero (flush (s.reg ra)) = true := isZero_flush_of_zero_or_denormal ha
    have hea : fpExp (s.reg ra) = 0 := isZero_flush_iff.mp hza
    have h := hdiv (isNan_of_exp (by omega)) (isDenormal_of_zero_or_denormal ha)
    rw [divCore_of_zeros (isInfinite_of_number (.inl hza)) hza hzb] at h
    exact ends_of_invalid h
  · have h := hdiv (isNan_of_infinite ha) fun _ => isDenormal_of_exp (fpExp_of_infinite ha)
    rw [divCore_of_infinite_dividend ((isInfinite_flush _).trans ha) hfb] at h
    simp only [fpSign_flush] at h
    exact delivers_of_fpEnd h

/-! ### Zeros and normalized numbers (R337, R340, R342, R344, R346) -/

theorem exec_of_numbers (h : exec i s = s.fpEnd d (fpBinary s.fpsr core (s.reg ra) (s.reg rb)))
    (ha : IsNumber (s.reg ra)) (hb : IsNumber (s.reg rb)) : exec i s = s.fpEnd d (core (s.reg ra) (s.reg rb)) := by
  rw [h, fpBinary_of_two_numbers ha hb]

/-- A value that is the zero of both addends' sign where they are zeros of one sign, and the zero that the rounding mode asks for
where the signs differ, is the value of a zero sum (R337, decision D22). -/
theorem eq_zero_sum {v : Word} (h0 : fpVal a + fpVal b = 0)
    (hsame : isZero a = true → isZero b = true → fpSign a = fpSign b → v = signedZero (fpSign a))
    (hdiffer : isZero a = false ∨ fpSign a ≠ fpSign b → v = if f.rm = .minusInf then 0x80000000 else 0) :
    v = signedZero (zeroSumSign f a b) := by
  by_cases hs : fpSign a = fpSign b
  · have ha : isZero a = true := by
      by_contra h
      exact fpSign_ne_of_add_eq_zero (by simpa using h) h0 hs
    have hb : isZero b = true := by
      rw [fpVal_eq_zero_iff.mpr ha, Int.zero_add] at h0
      exact fpVal_eq_zero_iff.mp h0
    rw [hsame ha hb hs, zeroSumSign, if_pos hs]
  · rw [hdiffer (.inr hs), zeroSumSign, if_neg hs, signedZero]
    simp only [decide_eq_true_eq]

/-- The outcome of FADD on numbers, by its exact sum `r`; of FSUB with the second operand's sign inverted. -/
theorem eq_addCore {r : Int} {o : FpOutcome} (ha : IsNumber a) (hb : IsNumber b) (hr : r = fpVal a + fpVal b)
    (hsum : r ≠ 0 → o = fpFinish f f.rm (decide (r < 0)) r.natAbs (2 ^ 149))
    (hcauses : r = 0 → o.causes = FpCauses.none) (hvalue : r = 0 → o.value = signedZero (zeroSumSign f a b)) :
    o = addCore f a b := by
  subst hr
  by_cases h0 : fpVal a + fpVal b = 0
  · rw [addCore_of_zero_sum (isInfinite_of_number ha) (isInfinite_of_number hb) h0, ← hcauses h0, ← hvalue h0]
  · rw [addCore_of_sum (isInfinite_of_number ha) (isInfinite_of_number hb) h0, hsum h0]

theorem isNumber_negate (h : IsNumber a) : IsNumber (negate a) := by simpa [IsNumber] using h

/-- Settles O47: the hypotheses say what the arithmetic case answers. -/
theorem arithmeticOnNumbersIsExactThenFinished : Obligations.ArithmeticOnNumbersIsExactThenFinished := by
  refine ⟨fun d a b => ⟨spelled32_of_encode rfl, spelled32_of_encode rfl, spelled32_of_encode rfl, spelled32_of_encode rfl⟩, ?_⟩
  rintro s d ra rb _ _ rfl rfl ha hb i r o
    (⟨⟨rfl, hr⟩ | ⟨rfl, hr⟩, hsum, hzero⟩ | ⟨rfl, ho⟩ | ⟨rfl, hzb, ho⟩)
  · have ho : o = addCore s.fpsr (s.reg ra) (s.reg rb) :=
      eq_addCore ha hb hr hsum (fun h0 => (hzero h0).1) fun h0 => by
        obtain ⟨-, hsame, hdiffer⟩ := hzero h0
        exact eq_zero_sum (hr ▸ h0) (fun hza hzb hs => hsame _ hza hzb rfl (.inl ⟨hs.symm, rfl⟩))
          fun h => hdiffer (h.imp_right fun hs => .inl ⟨rfl, hs⟩)
    rw [ho]
    exact ends_of_fpEnd (exec_of_numbers rfl ha hb)
  · have ho : o = subCore s.fpsr (s.reg ra) (s.reg rb) :=
      eq_addCore ha (isNumber_negate hb) (by rw [hr, fpVal_negate, Int.sub_eq_add_neg]) hsum (fun h0 => (hzero h0).1) fun h0 => by
        obtain ⟨-, hsame, hdiffer⟩ := hzero h0
        refine eq_zero_sum ?_ (fun hza hzb hs => hsame _ hza (by simpa using hzb) rfl (.inr ⟨?_, rfl⟩))
          fun h => hdiffer (h.imp_right fun hs => .inr ⟨rfl, ?_⟩)
        · rw [fpVal_negate, ← Int.sub_eq_add_neg, ← hr, h0]
        · rw [hs, fpSign_negate, Bool.not_not]
        · simpa using hs
    rw [ho]
    exact ends_of_fpEnd (exec_of_numbers rfl ha hb)
  · have hia := isInfinite_of_number ha
    have hib := isInfinite_of_number hb
    have ho : o = mulCore s.fpsr s.fpsr.rm (s.reg ra) (s.reg rb) := by
      split at ho
      · next h0 => rw [ho, mulCore_of_zero hia hib h0, signedZero_bne]
      · next h0 => rw [ho, mulCore_of_product hia hib h0]
    rw [ho]
    exact ends_of_fpEnd (exec_of_numbers rfl ha hb)
  · have hia := isInfinite_of_number ha
    have hib := isInfinite_of_number hb
    have ho : o = divCore s.fpsr (s.reg ra) (s.reg rb) := by
      split at ho
      · next h0 => rw [ho, divCore_of_zero_dividend hia hib h0 hzb, signedZero_bne]
      · next h0 => rw [ho, divCore_of_quotient hia hib (by simpa using h0) hzb]
    rw [ho]
    exact ends_of_fpEnd (exec_of_numbers rfl ha hb)

/-! ### Results below the normalized numbers (R331, R336, decision D18) -/

/-- The three outcomes of an operation that ends with such a finish. -/
theorem ends_of_tiny (rnd : RoundMode) {neg : Bool} {num den : Nat} (h : num * 2 ^ 126 < den)
    (hi : exec i s = s.fpEnd d (fpFinish s.fpsr rnd neg num den)) :
    (s.fpsr.eu = true → exec i s = .next (({ s with fpsr := { s.fpsr with cause := udf } } : State).eitEntry .fpe)) ∧
    (s.fpsr.eu = false → s.fpsr.dn = false →
      exec i s = .next (({ s with fpsr := { s.fpsr with cause := udf.union uipl } } : State).eitEntry .fpe)) ∧
    (s.fpsr.eu = false → s.fpsr.dn = true → WritesReg i s d (signedZero neg) 4 [.fpsr] ∧
      Completes i s fun t => t.fpsr = fpsrAfter s.fpsr udf) := by
  rw [fpFinish_of_tiny s.fpsr rnd neg h] at hi
  refine ⟨fun heu => ?_, fun heu hdn => ?_, fun heu hdn => ?_⟩
  · simp only [heu, Bool.not_true, Bool.false_and, Bool.false_eq_true, if_false] at hi
    exact (ends_of_fpEnd hi).2 (by simp [heu])
  · simp only [heu, hdn, Bool.not_false, Bool.and_self, if_true] at hi
    exact (ends_of_fpEnd hi).2 (by simp)
  · simp only [heu, hdn, Bool.not_true, Bool.and_false, Bool.false_eq_true, if_false] at hi
    exact (ends_of_fpEnd hi).1 (by simp [heu])

theorem mul_two_pow_lt {n : Nat} (k : Nat) (h : n < 2 ^ k) : n * 2 ^ 126 < 2 ^ (k + 126) := by
  rw [Nat.pow_add]
  exact Nat.mul_lt_mul_of_pos_right h (Nat.two_pow_pos _)

/-- Settles O51: the finish judges underflow before rounding, and the exact results named are below 2^-126. -/
theorem underflowHasThreeOutcomes : Obligations.UnderflowHasThreeOutcomes := by
  refine ⟨fun f rnd neg num den _ h => ?_, ?_⟩
  · rw [fpFinish_of_tiny f rnd neg h]
    refine ⟨fun heu => ?_, fun heu hdn => ?_, fun heu hdn => ⟨?_, rfl⟩⟩
    · simp [heu, udf]
    · simp [heu, hdn, udf, uipl, FpCauses.union]
    · simp [heu, hdn, udf]
  · rintro s d ra rb _ _ rfl rfl hla hha hlb hhb i r neg
      (⟨⟨rfl, rfl⟩ | ⟨rfl, rfl⟩, hr, hlt, rfl⟩ | ⟨⟨rfl, hlt⟩ | ⟨rfl, hlt⟩, rfl⟩)
    all_goals
      have ha : IsNumber (s.reg ra) := .inr ⟨hla, hha⟩
      have hb : IsNumber (s.reg rb) := .inr ⟨hlb, hhb⟩
      have hia := isInfinite_of_number ha
      have hib := isInfinite_of_number hb
      have hza : isZero (s.reg ra) = false := isZero_of_exp (by omega)
      have hzb : isZero (s.reg rb) = false := isZero_of_exp (by omega)
    · refine ends_of_tiny s.fpsr.rm (mul_two_pow_lt 23 hlt) ?_
      rw [← addCore_of_sum hia hib hr]
      exact exec_of_numbers rfl ha hb
    · refine ends_of_tiny s.fpsr.rm (mul_two_pow_lt 23 hlt) ?_
      rw [Int.sub_eq_add_neg, ← fpVal_negate] at hr ⊢
      rw [← addCore_of_sum hia ((isInfinite_negate _).trans hib) hr]
      exact exec_of_numbers (core := subCore s.fpsr) rfl ha hb
    · refine ends_of_tiny s.fpsr.rm (mul_two_pow_lt 172 hlt) ?_
      rw [← mulCore_of_product hia hib (by simp [hza, hzb])]
      exact exec_of_numbers rfl ha hb
    · refine ends_of_tiny s.fpsr.rm hlt ?_
      rw [← divCore_of_quotient hia hib hza hzb]
      exact exec_of_numbers rfl ha hb

/-! ### Denormalized operands (R322, R335) -/

theorem fpCompare_of_denormal {n : Nat} {invalid : Word → Bool} (hinv : invalid a = false ∧ invalid b = false)
    (ha : isNan a = false) (hb : isNan b = false) (hd : ((isDenormal a || isDenormal b) && !f.dn) = true) :
    fpCompare f n invalid a b = { causes := uipl, value := signedZero false } := by
  simp [fpCompare, hinv, ha, hb, hd]

/-- Settles O52: with DN = 0 `fpBinary` and `fpCompare` find a denormalized operand before anything but NaNs; with DN = 1 they see
flushed operands only. -/
theorem denormalizedOperandsAreUnimplementedOrZero : Obligations.DenormalizedOperandsAreUnimplementedOrZero := by
  refine ⟨?_, ?_⟩
  · intro s d a b hdn ha hb hden i hi
    have hd : ((isDenormal (s.reg a) || isDenormal (s.reg b)) && !s.fpsr.dn) = true := by simpa [hdn] using hden
    suffices h : exec i s = s.fpEnd d { causes := uipl, value := signedZero false } from
      (ends_of_fpEnd h).2 (triggers_uipl _)
    simp only [List.mem_cons, List.not_mem_nil, or_false] at hi
    obtain rfl | rfl | rfl | rfl | rfl | rfl := hi
    · exact congrArg (s.fpEnd d) (fpBinary_of_denormal ha hb hd)
    · exact congrArg (s.fpEnd d) (fpBinary_of_denormal ha hb hd)
    · exact congrArg (s.fpEnd d) (fpBinary_of_denormal ha hb hd)
    · exact congrArg (s.fpEnd d) (fpBinary_of_denormal ha hb hd)
    · exact congrArg (s.fpEnd d) (fpCompare_of_denormal ⟨isSnan_of_not_nan ha, isSnan_of_not_nan hb⟩ ha hb hd)
    · exact congrArg (s.fpEnd d) (fpCompare_of_denormal ⟨ha, hb⟩ ha hb hd)
  · rintro s u d a b r hdn hden hrd rfl mk hmk t ht
    have hflush (x : Reg) : flush ((s.setReg r (s.reg r &&& 0x80000000)).reg x) = flush (s.reg x) := by
      rw [reg_setReg]
      split
      · next hx => rw [hx, ← flush_of_denormal hden, flush_flush]
      · rfl
    have hreg : (s.setReg r (s.reg r &&& 0x80000000)).reg d = s.reg d := by rw [reg_setReg, if_neg hrd.symm]
    have hfpsr := setReg_fpsr s r (s.reg r &&& 0x80000000)
    generalize s.setReg r (s.reg r &&& 0x80000000) = u at *
    have hsame (core : Word → Word → FpOutcome) :
        fpBinary s.fpsr core (u.reg a) (u.reg b) = fpBinary s.fpsr core (s.reg a) (s.reg b) := by
      rw [← fpBinary_flush hdn, hflush, hflush, fpBinary_flush hdn]
    have hends (core : Fpsr → Word → Word → FpOutcome)
        (ht : s.fpEnd d (fpBinary s.fpsr (core s.fpsr) (s.reg a) (s.reg b)) = .next t) :
        ∃ v : State, u.fpEnd d (fpBinary u.fpsr (core u.fpsr) (u.reg a) (u.reg b)) = .next v ∧
          v.reg d = t.reg d ∧ v.fpsr = t.fpsr := by
      rw [hfpsr, hsame]
      exact fpEnd_congr hfpsr hreg ht
    simp only [List.mem_cons, List.not_mem_nil, or_false] at hmk
    obtain rfl | rfl | rfl | rfl := hmk
    · exact hends addCore ht
    · exact hends subCore ht
    · exact hends (fun f => mulCore f f.rm) ht
    · exact hends divCore ht

/-! ### The order and the signs of the operands (R341, R343, R345) -/

/-- Settles O53: the arithmetic cases of FADD and FMUL commute, and FSUB's is that of FADD with the second operand's sign
inverted. -/
theorem faddAndFmulCommuteAndFsubAddsTheNegation : Obligations.FaddAndFmulCommuteAndFsubAddsTheNegation := by
  intro s d a b
  refine ⟨fun h => ⟨congrArg (s.fpEnd d) (fpBinary_comm (addCore_comm _) h),
    congrArg (s.fpEnd d) (fpBinary_comm (mulCore_comm _ _) h)⟩, ?_⟩
  rintro hb u t hab rfl hdb ht
  have hregd : (s.setReg b (negate (s.reg b))).reg d = s.reg d := by rw [reg_setReg, if_neg hdb]
  have hrega : (s.setReg b (negate (s.reg b))).reg a = s.reg a := by rw [reg_setReg, if_neg hab]
  have hregb : (s.setReg b (negate (s.reg b))).reg b = negate (s.reg b) := reg_setReg_same ..
  have hfpsr := setReg_fpsr s b (negate (s.reg b))
  change ∃ v : State, exec (.fadd d a b) (s.setReg b (negate (s.reg b))) = .next v ∧ v.reg d = t.reg d ∧ v.fpsr = t.fpsr
  generalize s.setReg b (negate (s.reg b)) = u at *
  have hsame : fpBinary u.fpsr (addCore u.fpsr) (u.reg a) (u.reg b) =
      fpBinary s.fpsr (subCore s.fpsr) (s.reg a) (s.reg b) := by
    rw [hfpsr, hrega, hregb, fpBinary_negate_right hb]
    rfl
  change ∃ v : State, u.fpEnd d (fpBinary u.fpsr (addCore u.fpsr) (u.reg a) (u.reg b)) = .next v ∧ _
  rw [hsame]
  exact fpEnd_congr hfpsr hregd ht

end Sys2Proof.Machine
end

section
/-! PROOFS. FMADD and FMSUB (47_float_arith.md R350 to R359, decision D21).

Step 1 is FMUL rounded toward zero: it detects the same, and delivers the same unless the product overflows. Neither an SNaN nor a
denormalized number comes out of it, so step 2 is `fpBinary` with the case of FADD or FSUB, unless the product overflowed or Rdest
is a QNaN beside a NaN product. -/

namespace Sys2Proof.Machine

variable {s p t : State} {i : Instr} {d x ra rb : Reg} {f : Fpsr} {o : FpOutcome} {a b y : Word} {sub : Bool}

/-! ### What FADD, FSUB, FMUL and FDIV deliver -/

/-- A value that needs no further conversion: no SNaN and no denormalized number. -/
def Settled (v : Word) : Prop := isSnan v = false ∧ isDenormal v = false

theorem settled_of_exp {v : Word} (h0 : fpExp v ≠ 0) (hn : isNan v = false) : Settled v :=
  ⟨isSnan_of_not_nan hn, isDenormal_of_exp h0⟩

theorem settled_of_zero {v : Word} (h : isZero v = true) : Settled v :=
  ⟨isSnan_of_not_nan (isNan_of_number (.inl h)), isDenormal_of_number (.inl h)⟩

theorem settled_of_infinite {v : Word} (h : isInfinite v = true) : Settled v :=
  settled_of_exp (fpExp_of_infinite h) (isNan_of_infinite h)

theorem settled_of_qnan {v : Word} (h : isQnan v = true) : Settled v :=
  ⟨isSnan_of_qnan h, isDenormal_of_nan (isNan_of_qnan h)⟩

theorem fpExp_overflowValue (rm : RoundMode) (neg : Bool) : fpExp (overflowValue rm neg) ≠ 0 := by
  cases rm <;> cases neg <;> decide

theorem settled_fpFinish (f : Fpsr) (rnd : RoundMode) (neg : Bool) (num : Nat) {den : Nat} (hden : 0 < den) :
    Settled (fpFinish f rnd neg num den).value := by
  by_cases htiny : num * 2 ^ 126 < den
  · rw [fpFinish_of_tiny f rnd neg htiny]
    exact settled_of_zero (isZero_signedZero neg)
  · by_cases ho : 0x7F800000 ≤ roundMag rnd neg num den
    · rw [fpFinish_of_overflow f rnd neg htiny ho]
      exact settled_of_exp (fpExp_overflowValue _ _) (isNan_overflowValue _ _)
    · rw [fpFinish_of_normal f rnd neg htiny ho]
      obtain ⟨hlow, hhigh⟩ := fpExp_rounded_range hden (Nat.not_lt.mp htiny) (Nat.not_le.mp ho)
      exact settled_of_exp (Nat.pos_iff_ne_zero.mp hlow) (isNan_of_exp (Nat.lt_of_le_of_lt hhigh (by decide)).ne)

theorem ArithOutcome.settled (h : ArithOutcome f o) : Settled o.value := by
  cases h with
  | invalid => exact settled_of_qnan isQnan_defaultNan
  | exact _ hv => exact hv.elim settled_of_zero settled_of_infinite
  | finish rnd neg num hden => exact settled_fpFinish f rnd neg num hden

theorem settled_fpBinary {core : Word → Word → FpOutcome} (hcore : ∀ a b : Word, ArithOutcome f (core a b)) (a b : Word) :
    Settled (fpBinary f core a b).value := by
  obtain hb | hb | hb := nan_cases b
  · rw [fpBinary_of_snan_right hb]
    exact settled_of_qnan (isQnan_quiet hb)
  · cases ha : isSnan a
    · rw [fpBinary_of_qnan_right ha hb]
      exact settled_of_qnan hb
    · rw [fpBinary_of_snan_left ha (isSnan_of_qnan hb)]
      exact settled_of_qnan (isQnan_quiet ha)
  · obtain ha | ha | ha := nan_cases a
    · rw [fpBinary_of_snan_left ha (isSnan_of_not_nan hb)]
      exact settled_of_qnan (isQnan_quiet ha)
    · rw [fpBinary_of_qnan_left ha hb]
      exact settled_of_qnan ha
    · cases hd : (isDenormal a || isDenormal b) && !f.dn
      · rw [fpBinary_of_numbers f core ha hb hd]
        exact (hcore _ _).settled
      · rw [fpBinary_of_denormal ha hb hd]
        exact settled_of_zero (isZero_signedZero false)

theorem settled_fmaStep1 (f : Fpsr) (a b : Word) : Settled (fmaStep1 f a b).value :=
  settled_fpBinary (arithOutcome_mulCore f .zero) a b

/-! ### An overflow in step 1 (R329, R354) -/

/-- The outcome of an operation that overflows. -/
def overflowOutcome (f : Fpsr) (neg : Bool) : FpOutcome :=
  { causes := if f.eo then ovf else ovf.union ixct, value := overflowValue f.rm neg }

theorem fpFinish_of_co {rnd : RoundMode} {neg : Bool} {num den : Nat} (h : (fpFinish f rnd neg num den).causes.co = true) :
    fpFinish f rnd neg num den = overflowOutcome f neg := by
  by_cases htiny : num * 2 ^ 126 < den
  · rw [fpFinish_of_tiny f rnd neg htiny] at h
    cases hu : !f.eu && !f.dn <;> simp [hu, udf, uipl, FpCauses.union] at h
  · by_cases ho : 0x7F800000 ≤ roundMag rnd neg num den
    · exact fpFinish_of_overflow f rnd neg htiny ho
    · rw [fpFinish_of_normal f rnd neg htiny ho] at h
      by_cases hrem : fpRem num den = 0 <;> simp [hrem, ixct] at h

theorem mulCore_of_co {rnd : RoundMode} (h : (mulCore f rnd a b).causes.co = true) :
    mulCore f rnd a b = overflowOutcome f (fpSign a != fpSign b) := by
  simp only [mulCore] at h ⊢
  split at h
  · cases h
  · next h1 =>
    rw [if_neg h1]
    split at h
    · cases h
    · next h2 =>
      rw [if_neg h2]
      split at h
      · cases h
      · next h3 =>
        rw [if_neg h3]
        exact fpFinish_of_co h

theorem fmaStep1_of_co (h : (fmaStep1 f a b).causes.co = true) :
    fmaStep1 f a b = overflowOutcome f (fpSign a != fpSign b) := by
  unfold fmaStep1 fpBinary at h ⊢
  split at h
  · cases h
  · next h1 =>
    rw [if_neg h1]
    split at h
    · cases h
    · next h2 =>
      rw [if_neg h2]
      split at h
      · cases h
      · next h3 => rw [if_neg h3, mulCore_of_co h, fpSign_flush, fpSign_flush]

/-! ### Step 1 in another rounding mode of the FPSR -/

/-- Two outcomes with the same causes, and the same but for the value of an overflow. -/
def SameUnlessOverflow (o o' : FpOutcome) : Prop := o'.causes = o.causes ∧ (o.causes.co = false → o' = o)

theorem sameUnlessOverflow_refl (o : FpOutcome) : SameUnlessOverflow o o := ⟨rfl, fun _ => rfl⟩

theorem sameUnlessOverflow_ite {c : Prop} [Decidable c] {o₁ o₂ o₃ : FpOutcome} (h : SameUnlessOverflow o₂ o₃) :
    SameUnlessOverflow (if c then o₁ else o₂) (if c then o₁ else o₃) := by
  split
  · exact sameUnlessOverflow_refl o₁
  · exact h

theorem fpFinish_withRm (f : Fpsr) (rm rnd : RoundMode) (neg : Bool) (num den : Nat) :
    SameUnlessOverflow (fpFinish f rnd neg num den) (fpFinish { f with rm := rm } rnd neg num den) := by
  refine sameUnlessOverflow_ite ?_
  split
  · refine ⟨rfl, fun h => ?_⟩
    cases heo : f.eo <;> simp [heo, ovf, ixct, FpCauses.union] at h
  · exact sameUnlessOverflow_refl _

theorem fmaStep1_withRm (f : Fpsr) (rm : RoundMode) (a b : Word) :
    SameUnlessOverflow (fmaStep1 f a b) (fmaStep1 { f with rm := rm } a b) :=
  sameUnlessOverflow_ite <| sameUnlessOverflow_ite <| sameUnlessOverflow_ite <|
    sameUnlessOverflow_ite <| sameUnlessOverflow_ite <| sameUnlessOverflow_ite <| fpFinish_withRm f rm ..

/-- The state after FMUL rounded toward zero into `x`, where it does not end in EIT processing, by what step 1 answers. -/
structure AfterStep1 (s p : State) (x : Reg) (o : FpOutcome) : Prop where
  triggers : s.fpsr.triggers o.causes = false
  fpsr : p.fpsr = { fpsrAfter s.fpsr o.causes with rm := .zero }
  regs : ∀ r : Reg, r ≠ x → p.reg r = s.reg r
  value : o.causes.co = false → p.reg x = o.value
  notNan : o.causes.co = true → isNan (p.reg x) = false

section Step1

variable (h : exec (.fmul x ra rb) { s with fpsr := { s.fpsr with rm := .zero } } = .next p)
include h

theorem cause_of_step1 : p.fpsr.cause = (fmaStep1 s.fpsr (s.reg ra) (s.reg rb)).causes :=
  (fpEnd_cause h).trans (fmaStep1_withRm s.fpsr .zero (s.reg ra) (s.reg rb)).1

theorem afterStep1_of_fmul (ht : s.fpsr.triggers p.fpsr.cause = false) :
    AfterStep1 s p x (fmaStep1 s.fpsr (s.reg ra) (s.reg rb)) := by
  obtain ⟨hcauses, hsame⟩ := fmaStep1_withRm s.fpsr .zero (s.reg ra) (s.reg rb)
  rw [cause_of_step1 h] at ht
  obtain ⟨htrig, -⟩ | ⟨-, hp⟩ := fpEnd_cases h
  · cases (congrArg s.fpsr.triggers hcauses).trans ht |>.symm.trans htrig
  · have hvalue : p.reg x = (fmaStep1 { s.fpsr with rm := .zero } (s.reg ra) (s.reg rb)).value := by
      rw [hp, reg_advance, reg_setReg_same]
      rfl
    refine ⟨ht, ?_, fun r hr => ?_, fun hco => ?_, fun hco => ?_⟩
    · rw [hp, advance_fpsr, setReg_fpsr, ← hcauses]
      rfl
    · rw [hp, reg_advance, reg_setReg, if_neg hr]
      rfl
    · rw [hvalue, hsame hco]
    · rw [hvalue, fmaStep1_of_co ((congrArg FpCauses.co hcauses).trans hco)]
      exact isNan_overflowValue ..

end Step1

/-! ### Step 2 (R352, R354) -/

theorem fmaOutcome_of_trigger (h : f.triggers (fmaStep1 f a b).causes = true) :
    fmaOutcome f sub y a b =
      { causes := (fmaStep1 f a b).causes.union (fmaPrecheck f y), value := (fmaStep1 f a b).value } := by
  rw [fmaOutcome, if_pos h]

theorem fmaOutcome_of_no_trigger (h : f.triggers (fmaStep1 f a b).causes = false) :
    fmaOutcome f sub y a b =
      { causes := (fmaStep1 f a b).causes.union (fmaStep2 f sub y (fmaStep1 f a b)).causes
        value := (fmaStep2 f sub y (fmaStep1 f a b)).value } := by
  rw [fmaOutcome, h]
  rfl

/-- The causes that the check of Rdest adds when step 1 ends in EIT processing (R353, decision D21). -/
theorem fmaPrecheck_eq (f : Fpsr) (y : Word) :
    fmaPrecheck f y = { FpCauses.none with ce := isDenormal y && !f.dn, cv := isSnan y } := by
  unfold fmaPrecheck
  cases hd : isDenormal y && !f.dn
  · cases hs : isSnan y <;> rfl
  · have hden : isDenormal y = true := by
      rw [Bool.and_eq_true] at hd
      exact hd.1
    rw [isSnan_of_not_nan (isNan_of_denormal hden)]
    rfl

theorem fmaStep2_of_snan (h : isSnan y = true) : fmaStep2 f sub y o = { causes := ivld, value := quiet y } := by
  simp [fmaStep2, h]

theorem fmaStep2_of_qnan (h : isQnan y = true) : fmaStep2 f sub y o = { causes := FpCauses.none, value := y } := by
  simp [fmaStep2, h, isSnan_of_qnan h]

section NotNan

variable (hy : isNan y = false)
include hy

theorem fmaStep2_of_nan_product (ho : isNan o.value = true) :
    fmaStep2 f sub y o = { causes := FpCauses.none, value := o.value } := by
  simp [fmaStep2, isSnan_of_not_nan hy, isQnan_of_not_nan hy, ho]

variable (ho : isNan o.value = false)
include ho

theorem fmaStep2_of_denormal (hd : (isDenormal y && !f.dn) = true) :
    fmaStep2 f sub y o = { causes := uipl, value := signedZero false } := by
  simp [fmaStep2, isSnan_of_not_nan hy, isQnan_of_not_nan hy, ho, hd]

theorem fmaStep2_of_overflow (hd : (isDenormal y && !f.dn) = false) (hco : o.causes.co = true) :
    fmaStep2 f sub y o = fmaOverflowed (flush y) (if sub then negate o.value else o.value) := by
  simp [fmaStep2, isSnan_of_not_nan hy, isQnan_of_not_nan hy, ho, hd, hco]

theorem fmaStep2_of_sum (hd : (isDenormal y && !f.dn) = false) (hco : o.causes.co = false) :
    fmaStep2 f sub y o = addCore f (flush y) (if sub then negate o.value else o.value) := by
  simp [fmaStep2, isSnan_of_not_nan hy, isQnan_of_not_nan hy, ho, hd, hco]

end NotNan

/-- FMADD and FMSUB with their step 2. -/
theorem exec_fused (hi : i ∈ [Instr.fmadd d ra rb, .fmsub d ra rb]) :
    ∃ sub : Bool, exec i s = s.fpEnd d (fmaOutcome s.fpsr sub (s.reg d) (s.reg ra) (s.reg rb)) := by
  simp only [List.mem_cons, List.not_mem_nil, or_false] at hi
  obtain rfl | rfl := hi
  · exact ⟨false, rfl⟩
  · exact ⟨true, rfl⟩

/-- Where step 1 does not end in EIT processing, the operation ends with the causes of both steps and what step 2 delivers. -/
theorem ends_of_step2 {v : Word} {e : FpCauses}
    (h : exec i s = s.fpEnd d (fmaOutcome s.fpsr sub (s.reg d) a b))
    (ht : s.fpsr.triggers (fmaStep1 s.fpsr a b).causes = false)
    (h2 : fmaStep2 s.fpsr sub (s.reg d) (fmaStep1 s.fpsr a b) = { causes := e, value := v }) :
    (s.fpsr.triggers e = false → WritesReg i s d v 4 [.fpsr] ∧
      Completes i s fun t => t.fpsr = fpsrAfter s.fpsr ((fmaStep1 s.fpsr a b).causes.union e)) ∧
    (s.fpsr.triggers e = true →
      exec i s = .next (({ s with
        fpsr := { s.fpsr with cause := (fmaStep1 s.fpsr a b).causes.union e } } : State).eitEntry .fpe)) := by
  rw [fmaOutcome_of_no_trigger ht, h2] at h
  have hends := ends_of_fpEnd h
  rwa [triggers_union, ht, Bool.false_or] at hends

/-! ### NaNs (R352, R353, R358) -/

/-- Settles O55: step 1 ends in EIT processing with the check of Rdest, or step 2 finds a NaN. -/
theorem fusedFormsCheckRdestAndChooseTheirNan : Obligations.FusedFormsCheckRdestAndChooseTheirNan := by
  intro s p d a b x hxd hp i hi
  obtain ⟨sub, h⟩ := exec_fused (s := s) hi
  have hcause := cause_of_step1 hp
  refine ⟨fun ht => ?_, fun ht => ?_⟩
  · rw [hcause] at ht ⊢
    rw [fmaOutcome_of_trigger ht] at h
    rw [← fmaPrecheck_eq]
    exact (ends_of_fpEnd h).2 (by rw [triggers_union, ht, Bool.true_or])
  · have hstep1 := afterStep1_of_fmul hp ht
    rw [hcause]
    refine ⟨fun hy => ?_, fun hy hev => ?_, fun hy hev => ?_, fun hy hx => ?_⟩
    · simpa using (ends_of_step2 h hstep1.triggers (fmaStep2_of_qnan hy)).1
    · exact (ends_of_step2 h hstep1.triggers (fmaStep2_of_snan hy)).1 ((triggers_ivld _).trans hev)
    · exact (ends_of_step2 h hstep1.triggers (fmaStep2_of_snan hy)).2 ((triggers_ivld _).trans hev)
    · have hco : (fmaStep1 s.fpsr (s.reg a) (s.reg b)).causes.co = false := by
        by_contra hco
        rw [hstep1.notNan (by simpa using hco)] at hx
        cases hx
      rw [hstep1.value hco] at hx ⊢
      simpa using (ends_of_step2 h hstep1.triggers (fmaStep2_of_nan_product hy hx)).1

/-! ### An overflow of the product (R354) -/

/-- The immediate value by rounding mode and sign. -/
theorem eq_overflowValue {rm : RoundMode} {neg : Bool} {v : Word}
    (hnearest : rm = .nearest → v = if neg then 0xFF800000 else 0x7F800000)
    (hzero : rm = .zero → v = if neg then 0xFF7FFFFF else 0x7F7FFFFF)
    (hplus : rm = .plusInf → v = if neg then 0xFF7FFFFF else 0x7F800000)
    (hminus : rm = .minusInf → v = if neg then 0xFF800000 else 0x7F7FFFFF) : v = overflowValue rm neg := by
  cases rm with
  | nearest => cases neg <;> exact hnearest rfl
  | zero => cases neg <;> exact hzero rfl
  | plusInf => cases neg <;> exact hplus rfl
  | minusInf => cases neg <;> exact hminus rfl

/-- A masked overflow is inexact (R329). -/
theorem fmaStep1_of_masked_overflow (ht : f.triggers (fmaStep1 f a b).causes = false) (hco : (fmaStep1 f a b).causes.co = true) :
    fmaStep1 f a b = { causes := ovf.union ixct, value := overflowValue f.rm (fpSign a != fpSign b) } := by
  have ho := fmaStep1_of_co hco
  rw [ho, overflowOutcome] at ht ⊢
  cases heo : f.eo
  · rfl
  · simp [heo, Fpsr.triggers, ovf] at ht

theorem fmaOverflowed_of_finite (v : Word) (hy : isInfinite y = false) :
    fmaOverflowed y v = { causes := FpCauses.none, value := v } := by
  simp [fmaOverflowed, hy]

theorem fmaOverflowed_of_infinite {v : Word} (hy : isInfinite y = true)
    (hv : ¬ (isInfinite v = true ∧ fpSign y ≠ fpSign v)) :
    fmaOverflowed y v = { causes := FpCauses.none, value := y } := by
  rw [fmaOverflowed, if_pos hy, if_neg (by simpa using hv)]

theorem fmaOverflowed_of_opposite {v : Word} (hy : isInfinite y = true) (hv : isInfinite v = true) (hs : fpSign y ≠ fpSign v) :
    fmaOverflowed y v = { causes := ivld, value := defaultNan } := by
  simp [fmaOverflowed, hy, hv, hs]

/-- Settles O56: after a masked overflow step 2 has the immediate value for the product. -/
theorem fusedFormsReplaceRdestAfterAnOverflow : Obligations.FusedFormsReplaceRdestAfterAnOverflow := by
  rintro s p d a b x hxd hp hco ht i neg immediate v y rfl rfl hnearest hzero hplus hminus hi
  have htrig := (afterStep1_of_fmul hp ht).triggers
  rw [cause_of_step1 hp] at hco
  obtain rfl := eq_overflowValue hnearest hzero hplus hminus
  have hstep1 := fmaStep1_of_masked_overflow htrig hco
  obtain ⟨sub, h, hv⟩ : ∃ sub : Bool,
      exec i s = s.fpEnd d (fmaOutcome s.fpsr sub (s.reg d) (s.reg a) (s.reg b)) ∧
      (if sub then negate (overflowValue s.fpsr.rm (fpSign (s.reg a) != fpSign (s.reg b)))
        else overflowValue s.fpsr.rm (fpSign (s.reg a) != fpSign (s.reg b))) = v := by
    obtain ⟨rfl, rfl⟩ | ⟨rfl, rfl⟩ := hi
    · exact ⟨false, rfl, rfl⟩
    · exact ⟨true, rfl, rfl⟩
  have hends {e : FpCauses} {w : Word} := ends_of_step2 (e := e) (v := w) h htrig
  rw [show (fmaStep1 s.fpsr (s.reg a) (s.reg b)).causes = ovf.union ixct by rw [hstep1]] at hends
  generalize fmaStep1 s.fpsr (s.reg a) (s.reg b) = o at hends hco hstep1
  have hvalue : o.value = overflowValue s.fpsr.rm (fpSign (s.reg a) != fpSign (s.reg b)) := by rw [hstep1]
  have hnan : isNan o.value = false := by
    rw [hvalue]
    exact isNan_overflowValue ..
  have hstep2 (hy : isNan (s.reg d) = false) (hd : (isDenormal (s.reg d) && !s.fpsr.dn) = false) :
      fmaStep2 s.fpsr sub (s.reg d) o = fmaOverflowed (flush (s.reg d)) v := by
    rw [fmaStep2_of_overflow hy hnan hd hco, hvalue, hv]
  have hinf (hy : isInfinite (s.reg d) = true) : fmaStep2 s.fpsr sub (s.reg d) o = fmaOverflowed (s.reg d) v := by
    rw [hstep2 (isNan_of_infinite hy) (by rw [isDenormal_of_exp (fpExp_of_infinite hy)]; rfl), flush_of_infinite hy]
  refine ⟨fun hy => ?_, fun hy hsame => ?_, fun hy hv hs hev => ?_, fun hy hv hs hev => ?_, fun hy hdn => ?_⟩
  · have hclass : isNan (s.reg d) = false ∧ (isDenormal (s.reg d) && !s.fpsr.dn) = false ∧ isInfinite (s.reg d) = false := by
      obtain hy | hy | ⟨hy, hdn⟩ := hy
      · have hnum : IsNumber (s.reg d) := .inl hy
        simp [isNan_of_number hnum, isDenormal_of_number hnum, isInfinite_of_number hnum]
      · have hnum : IsNumber (s.reg d) := .inr hy
        simp [isNan_of_number hnum, isDenormal_of_number hnum, isInfinite_of_number hnum]
      · simp [isNan_of_denormal hy, hdn, isInfinite_of_exp (x := s.reg d) (by rw [fpExp_of_denormal hy]; decide)]
    obtain ⟨hnany, hden, hfin⟩ := hclass
    exact (hends ((hstep2 hnany hden).trans (fmaOverflowed_of_finite v ((isInfinite_flush _).trans hfin)))).1 (triggers_none _)
  · exact (hends ((hinf hy).trans (fmaOverflowed_of_infinite hy hsame))).1 (triggers_none _)
  · exact (hends ((hinf hy).trans (fmaOverflowed_of_opposite hy hv hs))).1 ((triggers_ivld _).trans hev)
  · exact (hends ((hinf hy).trans (fmaOverflowed_of_opposite hy hv hs))).2 ((triggers_ivld _).trans hev)
  · exact (hends (fmaStep2_of_denormal (isNan_of_denormal hy) hnan (by rw [hy, hdn]; rfl))).2 (triggers_uipl _)

/-! ### Multiply, then add (R350, R352, R356, R359) -/

/-- Step 2 on what step 1 delivers is FADD's or FSUB's choice of the case, unless the product overflows or a QNaN in Rdest meets
a NaN product. -/
theorem fmaStep2_eq_fpBinary (ho : Settled o.value) (hco : o.causes.co = false)
    (hnan : ¬ (isQnan y = true ∧ isNan o.value = true)) :
    fmaStep2 f sub y o = fpBinary f (if sub then subCore f else addCore f) y o.value := by
  obtain hy | hy | hy := nan_cases y
  · rw [fmaStep2_of_snan hy, fpBinary_of_snan_left hy ho.1]
  · rw [fmaStep2_of_qnan hy, fpBinary_of_qnan_left hy (by simpa [hy] using hnan)]
  · cases hv : isNan o.value
    · cases hd : isDenormal y && !f.dn
      · rw [fmaStep2_of_sum hy hv hd hco, fpBinary_of_numbers _ _ hy hv (by rw [ho.2, Bool.or_false, hd]),
          flush_of_not_denormal ho.2]
        cases sub <;> rfl
      · rw [fmaStep2_of_denormal hy hv hd, fpBinary_of_denormal hy hv (by rw [ho.2, Bool.or_false, hd])]
    · have hq : isQnan o.value = true := by simpa [isNan, ho.1] using hv
      rw [fmaStep2_of_nan_product hy hv, fpBinary_of_qnan_right (isSnan_of_not_nan hy) hq]

/-- Settles O54: the second instruction sees the flags that FMUL raised, but its outcome does not depend on them. -/
theorem fusedFormsAreMultiplyThenAddWhenTruncating : Obligations.FusedFormsAreMultiplyThenAddWhenTruncating := by
  refine ⟨fun d a b => ⟨spelled32_of_encode rfl, spelled32_of_encode rfl⟩, ?_⟩
  rintro s p q t d a b x hxd hp htrig hco hnan rfl i e rfl hi
  have hstep1 := afterStep1_of_fmul hp htrig
  have hcause := cause_of_step1 hp
  rw [hcause] at hco ⊢
  have hx := hstep1.value hco
  have hd := hstep1.regs d hxd.symm
  rw [hx] at hnan
  have hq : ({ p.fpsr with rm := s.fpsr.rm } : Fpsr) = fpsrAfter s.fpsr (fmaStep1 s.fpsr (s.reg a) (s.reg b)).causes := by
    rw [hstep1.fpsr]
    rfl
  obtain ⟨sub, h, hend⟩ : ∃ sub : Bool,
      exec i s = s.fpEnd d (fmaOutcome s.fpsr sub (s.reg d) (s.reg a) (s.reg b)) ∧
      ({ p with fpsr := { p.fpsr with rm := s.fpsr.rm } } : State).fpEnd d
        (fpBinary s.fpsr (if sub then subCore s.fpsr else addCore s.fpsr) (p.reg d) (p.reg x)) = .next t := by
    obtain ⟨rfl, ht⟩ | ⟨rfl, ht⟩ := hi
    · refine ⟨false, rfl, Eq.trans ?_ ht⟩
      rw [hq]
      rfl
    · refine ⟨true, rfl, Eq.trans ?_ ht⟩
      rw [hq]
      rfl
  rw [hd, hx, ← fmaStep2_eq_fpBinary (settled_fmaStep1 ..) hco hnan, hq] at hend
  have hends := ends_of_step2 h hstep1.triggers rfl
  rw [fpEnd_cause hend]
  exact ⟨fun ht => fpEnd_reg hend ht ▸ hends.1 ht, hends.2⟩

end Sys2Proof.Machine
end

section
/-! PROOFS. Conversion instructions (48_float_convert_compare.md): ITOF and UTOF.

A 32-bit integer other than 0 lies far inside the range of the normalized numbers. So its finish neither underflows nor overflows,
and what it detects is IXCT or nothing. -/

namespace Sys2Proof.Machine

variable {s : State} {i : Instr} {d : Reg} {o : FpOutcome} {f : Fpsr}

/-! ### A finish in the range of the normalized numbers (R336) -/

/-- A magnitude below 2^127 does not overflow, however it is rounded. -/
theorem roundMag_lt {num den : Nat} (rnd : RoundMode) (neg : Bool) (hden : 0 < den) (h : den ≤ num * 2 ^ 126)
    (hlt : num < den * 2 ^ 127) : roundMag rnd neg num den < 0x7F800000 := by
  have hne : num * 2 ^ 149 / den ≠ 0 := (Nat.lt_of_lt_of_le (by decide) (exact_ge hden h)).ne'
  have hlog : fpLog num den < 276 := by
    rw [fpLog, Nat.log2_lt hne, Nat.div_lt_iff_lt_mul hden]
    omega
  have hsig := (significand_range (rnd := rnd) (neg := neg) hden h).2
  rw [roundMag_eq]
  omega

/-- A finish of a magnitude from 2^-126 up to below 2^127 is exact or inexact, nothing else. -/
theorem fpFinish_causes_of_range {num den : Nat} (f : Fpsr) (rnd : RoundMode) (neg : Bool) (hden : 0 < den)
    (h : den ≤ num * 2 ^ 126) (hlt : num < den * 2 ^ 127) :
    (fpFinish f rnd neg num den).causes = FpCauses.none ∨ (fpFinish f rnd neg num den).causes = ixct := by
  rw [fpFinish_of_normal f rnd neg (Nat.not_lt.mpr h) (Nat.not_le.mpr (roundMag_lt rnd neg hden h hlt))]
  exact ite_eq_or_eq ..

/-! ### How an operation that is exact or inexact ends (R327) -/

@[simp] theorem triggers_ixct (f : Fpsr) : f.triggers ixct = f.ex := by simp [Fpsr.triggers, ixct]

theorem ends_of_exact_or_inexact (h : exec i s = s.fpEnd d o) (ho : o.causes = FpCauses.none ∨ o.causes = ixct) :
    (¬ (o.causes = ixct ∧ s.fpsr.ex = true) →
      WritesReg i s d o.value 4 [.fpsr] ∧ Completes i s fun t => t.fpsr = fpsrAfter s.fpsr o.causes) ∧
    (o.causes = ixct → s.fpsr.ex = true →
      exec i s = .next (({ s with fpsr := { s.fpsr with cause := ixct } } : State).eitEntry .fpe)) := by
  obtain ⟨hwrites, hfpe⟩ := ends_of_fpEnd h
  refine ⟨fun hmasked => hwrites ?_, fun hixct hex => ?_⟩
  · obtain hnone | hixct := ho
    · rw [hnone, triggers_none]
    · rw [hixct, triggers_ixct]
      simpa [hixct] using hmasked
  · rw [hixct, triggers_ixct] at hfpe
    exact hfpe hex

/-! ### Integer to float (R370, R371) -/

/-- The conversion of an integer by its two cases. -/
theorem eq_fromInt {x : Int} (hzero : x = 0 → o = { causes := FpCauses.none, value := 0 })
    (hfinish : x ≠ 0 → o = fpFinish f f.rm (decide (x < 0)) x.natAbs 1) : o = fromInt f x := by
  by_cases hx : x = 0
  · rw [hzero hx, fromInt, if_pos hx]
  · rw [hfinish hx, fromInt, if_neg hx]

/-- An integer of 32 bits converts exactly or inexactly. -/
theorem fromInt_causes (f : Fpsr) {x : Int} (hx : x.natAbs < 2 ^ 32) :
    (fromInt f x).causes = FpCauses.none ∨ (fromInt f x).causes = ixct := by
  by_cases h0 : x = 0
  · rw [fromInt, if_pos h0]
    exact .inl rfl
  · rw [fromInt, if_neg h0]
    exact fpFinish_causes_of_range _ _ _ Nat.one_pos (by omega) (by omega)

theorem natAbs_toInt_lt (w : Word) : w.toInt.natAbs < 2 ^ 32 := by
  have hlow := BitVec.le_toInt w
  have hhigh := BitVec.toInt_lt (x := w)
  omega

/-- Settles O57: both instructions end with `fromInt` of an integer of 32 bits. -/
theorem integersConvertToRoundedNumbers : Obligations.IntegersConvertToRoundedNumbers := by
  refine ⟨fun d r => ⟨spelled32_of_encode rfl, spelled32_of_encode rfl⟩, ?_⟩
  intro s d r i x o hi hzero hfinish
  obtain rfl := eq_fromInt hzero hfinish
  obtain ⟨hend, hx⟩ : exec i s = s.fpEnd d (fromInt s.fpsr x) ∧ x.natAbs < 2 ^ 32 := by
    obtain ⟨rfl, rfl⟩ | ⟨rfl, rfl⟩ := hi
    · exact ⟨rfl, natAbs_toInt_lt _⟩
    · exact ⟨rfl, (s.reg r).isLt⟩
  have hcauses := fromInt_causes s.fpsr hx
  exact ⟨hcauses, ends_of_exact_or_inexact hend hcauses⟩

end Sys2Proof.Machine
end

section
/-! PROOFS. Completion (60_exceptions.md R402, R403, R432, 20_memory.md R80): every instruction answers a next state, unless its
data access meets what the platform does not back.

`exec_eq_access` walks through the accessing instructions once: each is `State.access` at the address and of the width that
`dataAccess` says. So the address exception, the refusal and the completion of an access are those of `State.access`. -/

namespace Sys2Proof.Machine

variable {s t : State} {i : Instr} {a : Word} {n : Nat}

/-! ### Answers -/

/-- The answer is a next state. -/
def Answers (r : Result) : Prop := ∃ t : State, r = .next t

theorem answers_next (t : State) : Answers (.next t) := ⟨t, rfl⟩

theorem answers_ite {c : Prop} [Decidable c] {r r' : Result} (h : Answers r) (h' : Answers r') :
    Answers (if c then r else r') := by
  split
  · exact h
  · exact h'

/-! ### The instructions that access data -/

theorem aligned2_eq_decide (a : Word) : aligned2 a = decide (a.toNat % 2 = 0) := by
  rw [Bool.eq_iff_iff, aligned2_iff, decide_eq_true_iff]

theorem aligned4_eq_decide (a : Word) : aligned4 a = decide (a.toNat % 4 = 0) := by
  rw [Bool.eq_iff_iff, aligned4_iff, decide_eq_true_iff]

/-- A byte access is always aligned (20_memory.md R73). -/
theorem aligned1_eq_decide (a : Word) : true = decide (a.toNat % 1 = 0) := by
  rw [Nat.mod_one, decide_eq_true rfl]

/-- An instruction ends as a data access to the `n` bytes from `a` on that completes where it is aligned and backed. -/
def EndsInAccess (i : Instr) (s : State) (a : Word) (n : Nat) : Prop :=
  ∃ t : State, exec i s = s.access (decide (a.toNat % n = 0)) a n (.next t)

theorem endsInAccess1 (h : exec i s = s.access true a 1 (.next t)) : EndsInAccess i s a 1 :=
  ⟨t, by rwa [← aligned1_eq_decide]⟩

theorem endsInAccess2 (h : exec i s = s.access (aligned2 a) a 2 (.next t)) : EndsInAccess i s a 2 :=
  ⟨t, by rwa [← aligned2_eq_decide]⟩

theorem endsInAccess4 (h : exec i s = s.access (aligned4 a) a 4 (.next t)) : EndsInAccess i s a 4 :=
  ⟨t, by rwa [← aligned4_eq_decide]⟩

/-- UNLOCK makes its access only while the LOCK bit is 1 (40_load_store.md R163). -/
theorem dataAccess_unlock {r b : Reg} {vs : List (Option Word)} (h : dataAccess (.unlock r b) s = some (a, n, vs)) :
    s.lock = true ∧ a = s.reg b ∧ n = 4 := by
  rw [dataAccess] at h
  split at h
  · next hl =>
    cases h
    exact ⟨hl, rfl, rfl⟩
  · cases h

/-- An instruction that `dataAccess` gives an access ends in that access. -/
theorem exec_eq_access {vs : List (Option Word)} (h : dataAccess i s = some (a, n, vs)) : EndsInAccess i s a n := by
  cases i with
  | ldb | ldub | ldbDisp | ldubDisp | stb | stbDisp | bset | bclr =>
    cases h
    exact endsInAccess1 rfl
  | ldh | lduh | ldhDisp | lduhDisp | sth | sthDisp | sthInc =>
    cases h
    exact endsInAccess2 rfl
  | ld | ldDisp | ldInc | lock | st | stDisp | stPreInc | stPreDec =>
    cases h
    exact endsInAccess4 rfl
  | unlock =>
    obtain ⟨hl, rfl, rfl⟩ := dataAccess_unlock h
    exact endsInAccess4 (if_pos hl)
  | _ => simp [dataAccess] at h

/-- A misaligned access enters the address exception (20_memory.md R74). -/
theorem exec_of_misaligned {vs : List (Option Word)} (h : dataAccess i s = some (a, n, vs)) (ha : a.toNat % n ≠ 0) :
    exec i s = .next (s.eitEntry .ae) := by
  obtain ⟨t, hexec⟩ := exec_eq_access h
  rw [hexec, access_of_misaligned (decide_eq_false ha)]

/-- An aligned access to what the platform does not back is refused (20_memory.md R80, decision D29). -/
theorem exec_of_unbacked {vs : List (Option Word)} (h : dataAccess i s = some (a, n, vs)) (ha : a.toNat % n = 0)
    (hb : s.backed a n = false) : exec i s = .refused (.unbackedAddress a) := by
  obtain ⟨t, hexec⟩ := exec_eq_access h
  rw [hexec, access_of_unbacked (decide_eq_true ha) hb]

theorem answers_of_access {vs : List (Option Word)} (h : dataAccess i s = some (a, n, vs))
    (hok : a.toNat % n ≠ 0 ∨ s.backed a n = true) : Answers (exec i s) := by
  by_cases ha : a.toNat % n = 0
  · obtain ⟨t, hexec⟩ := exec_eq_access h
    rw [hexec, access_of_backed (decide_eq_true ha) (hok.resolve_left (not_not_intro ha))]
    exact answers_next t
  · rw [exec_of_misaligned h ha]
    exact answers_next _

/-! ### The instructions without an access -/

/-- A number that names a control register reads and writes one (10_state.md R24). -/
theorem readCR_writeCR_of_named {cr : CReg} (h : CReg.named cr = true) (v : Word) :
    (∃ w : Word, s.readCR cr = some w) ∧ ∃ t : State, s.writeCR cr v = some t := by
  simp only [CReg.named, Bool.or_eq_true, decide_eq_true_eq] at h
  obtain ((((rfl | rfl) | rfl) | rfl) | rfl) | rfl := h
  all_goals exact ⟨⟨_, rfl⟩, ⟨_, rfl⟩⟩

theorem answers_mvfc {d : Reg} {cr : CReg} (h : CReg.named cr = true) : Answers (execMvfc d cr s) := by
  obtain ⟨⟨v, hread⟩, -⟩ := readCR_writeCR_of_named (s := s) h 0
  rw [execMvfc, hread]
  exact answers_next _

theorem answers_mvtc {r : Reg} {cr : CReg} (h : CReg.named cr = true) : Answers (execMvtc r cr s) := by
  obtain ⟨-, t, hwrite⟩ := readCR_writeCR_of_named (s := s) h (s.reg r)
  rw [execMvtc, hwrite]
  exact answers_next _

/-- UNLOCK without its access completes: the address exception, or the LOCK bit cleared. -/
theorem answers_unlock_of_no_access {r b : Reg} (h : dataAccess (.unlock r b) s = none) : Answers (exec (.unlock r b) s) := by
  have hl : s.lock = false := by
    by_contra hl
    simp [dataAccess, hl] at h
  simp only [exec, execUnlock, hl, Bool.false_eq_true, if_false]
  exact answers_ite (answers_next _) (answers_next _)

/-- A well-formed instruction without a data access completes. -/
theorem answers_of_no_access (h : dataAccess i s = none) (hi : i.wellFormed = true) : Answers (exec i s) := by
  cases i with
  | ldb | ldub | ldbDisp | ldubDisp | stb | stbDisp | bset | bclr | ldh | lduh | ldhDisp | lduhDisp | sth | sthDisp | sthInc
  | ld | ldDisp | ldInc | lock | st | stDisp | stPreInc | stPreDec => simp [dataAccess] at h
  | unlock => exact answers_unlock_of_no_access h
  | mvfc => exact answers_mvfc hi
  | mvtc => exact answers_mvtc hi
  | divu | remu | bc8 | bnc8 | bc24 | bnc24 | beq | bne | beqz | bnez | bltz | bgez | blez | bgtz =>
    exact answers_ite (answers_next _) (answers_next _)
  | div | rem => exact answers_ite (answers_next _) (answers_ite (answers_next _) (answers_next _))
  | fadd | fsub | fmul | fdiv | fmadd | fmsub | fcmp | fcmpe | itof | utof | ftoi | ftos => exact fpEnd_completes s _ _
  | _ => exact answers_next _

/-- Settles O8: a well-formed instruction completes without an access (`answers_of_no_access`), or as its access does
(`exec_eq_access`). -/
theorem everyInstructionHasANextState : Obligations.EveryInstructionHasANextState := by
  refine ⟨fun i s hi hok => ?_, fun i s a n vs => exec_of_unbacked, fun s hreset hint hpc hb => ?_⟩
  · cases h : dataAccess i s with
    | none => exact answers_of_no_access h hi
    | some access =>
      obtain ⟨a, n, vs⟩ := access
      exact answers_of_access h (hok a n vs h)
  · simp only [step, hreset, hint, hpc, hb, Bool.not_false, Bool.false_eq_true, if_false, if_true]

end Sys2Proof.Machine
end

section
/-! PROOFS. The plain loads and stores, the forms that update their base, LOCK and UNLOCK (40_load_store.md) on plain memory.

A load is the write of its destination with the bytes that memory holds. Of a store, `StoresRam` says which bytes it leaves in
plain memory and that no device sees it; what it leaves of the rest of the state is `StoreLeaves`. A misaligned access is
`exec_of_misaligned`. -/

namespace Sys2Proof.Machine

variable {s t u : State} {i : Instr} {a : Word} {n : Nat} {bytes : List Byte}

/-! ### Loads from plain memory -/

/-- The halfword at an address of memory, the most significant byte first (20_memory.md R71, decision D1). -/
theorem load16_eq_byteAt (hr : s.ramAt a 2 = true) : s.load16 a = byteAt s a ++ byteAt s (a + 1) := load16_of_ramAt hr

/-- The word at an address of memory, the most significant byte first (20_memory.md R71, decision D1). -/
theorem load32_eq_byteAt (hr : s.ramAt a 4 = true) :
    s.load32 a = (byteAt s a ++ byteAt s (a + 1)) ++ (byteAt s (a + 2) ++ byteAt s (a + 3)) := load32_of_ramAt hr

/-- A load of a byte, extended by `ext`. -/
theorem writesReg_of_load8 {d : Reg} {ext : Byte → Word} {len : Word} (hr : s.ramAt a 1 = true)
    (h : exec i s = s.loadTo true a 1 d (ext (s.load8 a)) len) : WritesReg i s d (ext (byteAt s a)) len := by
  rw [load8_of_ramAt hr] at h
  exact writesReg_of_loadTo h rfl hr

/-- A load of a halfword, extended by `ext`. -/
theorem writesReg_of_load16 {d : Reg} {ext : Half → Word} {len : Word} (ha : aligned2 a = true) (hr : s.ramAt a 2 = true)
    (h : exec i s = s.loadTo (aligned2 a) a 2 d (ext (s.load16 a)) len) :
    WritesReg i s d (ext (byteAt s a ++ byteAt s (a + 1))) len := by
  rw [load16_eq_byteAt hr] at h
  exact writesReg_of_loadTo h ha hr

/-- A load of a word. -/
theorem writesReg_of_load32 {d : Reg} {len : Word} (ha : aligned4 a = true) (hr : s.ramAt a 4 = true)
    (h : exec i s = s.loadTo (aligned4 a) a 4 d (s.load32 a) len) :
    WritesReg i s d ((byteAt s a ++ byteAt s (a + 1)) ++ (byteAt s (a + 2) ++ byteAt s (a + 3))) len := by
  rw [load32_eq_byteAt hr] at h
  exact writesReg_of_loadTo h ha hr

theorem aligned2_of_even (h : a.getLsbD 0 = false) : aligned2 a = true :=
  aligned2_of_mod ((lowBit_eq_false_iff a).mp h)

/-- An odd address is not that of a halfword access. -/
theorem mod_two_ne_zero_of_odd (h : a.getLsbD 0 = true) : a.toNat % 2 ≠ 0 := by
  rw [Ne, ← lowBit_eq_false_iff, h]
  decide

/-- Settles O24: each load of the two addressing modes is `State.loadTo`, and the address exception is that of every access. -/
theorem loadsReadBigEndianBytesOrRaiseAe : Obligations.LoadsReadBigEndianBytesOrRaiseAe := by
  refine ⟨fun d r => ⟨spelled16_of_encode rfl, spelled16_of_encode rfl, spelled16_of_encode rfl, spelled16_of_encode rfl,
      spelled16_of_encode rfl⟩,
    fun d r x => ⟨spelled32_of_encode rfl, spelled32_of_encode rfl, spelled32_of_encode rfl, spelled32_of_encode rfl,
      spelled32_of_encode rfl⟩, ?_⟩
  rintro s d r x a len i8 u8 i16 u16 w (⟨rfl, rfl, rfl, rfl, rfl, rfl, rfl⟩ | ⟨rfl, rfl, rfl, rfl, rfl, rfl, rfl⟩)
  all_goals
    refine ⟨fun hr => ⟨writesReg_of_load8 hr rfl, writesReg_of_load8 hr rfl⟩, fun ha hr => ?_, fun ha => ?_,
      fun ha hr => writesReg_of_load32 (aligned4_of_mod ha) hr rfl, fun ha => exec_of_misaligned rfl ha⟩
    · exact ⟨writesReg_of_load16 (aligned2_of_even ha) hr rfl, writesReg_of_load16 (aligned2_of_even ha) hr rfl⟩
    · exact ⟨exec_of_misaligned rfl (mod_two_ne_zero_of_odd ha), exec_of_misaligned rfl (mod_two_ne_zero_of_odd ha)⟩

/-! ### Stores to plain memory -/

/-- From `s` to `u` the bytes were stored in plain memory from `a` on, no other byte changed, and no device saw it. -/
structure StoresRam (a : Word) (bytes : List Byte) (s u : State) : Prop where
  stored : ∀ (j : Nat) (b : Byte), bytes[j]? = some b → byteAt u (a + BitVec.ofNat 32 j) = b
  kept : MemKeptBut a bytes.length s u
  devLog : u.devLog = s.devLog

/-- What changes neither memory nor what devices saw may precede a store. -/
theorem StoresRam.of_same {s' : State} (h : StoresRam a bytes s' u) (hmem : s'.mem = s.mem) (hlog : s'.devLog = s.devLog) :
    StoresRam a bytes s u where
  stored := h.stored
  kept k hk := (h.kept k hk).trans (by rw [hmem])
  devLog := h.devLog.trans hlog

/-- What changes neither memory nor what devices saw may follow a store. -/
theorem StoresRam.congr (h : StoresRam a bytes s u) (hmem : t.mem = u.mem) (hlog : t.devLog = u.devLog) :
    StoresRam a bytes s t where
  stored j b hj := by rw [byteAt, hmem]; exact h.stored j b hj
  kept k hk := by rw [hmem, h.kept k hk]
  devLog := hlog.trans h.devLog

theorem store8_devLog_of_ramAt (hr : s.ramAt a 1 = true) (b : Byte) : (s.store8 a b).devLog = s.devLog := by
  rw [store8_devLog, logAccess_devLog_of_ramAt hr]

theorem store16_devLog_of_ramAt (hr : s.ramAt a 2 = true) (v : Half) : (s.store16 a v).devLog = s.devLog := by
  rw [store16_devLog, logAccess_devLog_of_ramAt hr]

theorem store32_devLog_of_ramAt (hr : s.ramAt a 4 = true) (v : Word) : (s.store32 a v).devLog = s.devLog := by
  rw [store32_devLog, logAccess_devLog_of_ramAt hr]

/-- A byte of memory after a store of a byte. -/
theorem byteAt_store8 (hm : Memory.wf s.mem = true) (hr : s.ramAt a 1 = true) (b : Byte) (k : Word) :
    byteAt (s.store8 a b) k = if k = a then b else byteAt s k := by
  have h0 : s.backing a = .ram := by simpa using backing_of_ramAt hr 0 (by omega)
  simp only [byteAt, read_store8 _ _ _ hm, h0, and_true, BitVec.toNat_inj]

/-- A byte of memory after a store of a halfword. -/
theorem byteAt_store16 (hm : Memory.wf s.mem = true) (hr : s.ramAt a 2 = true) (v : Half) (k : Word) :
    byteAt (s.store16 a v) k =
      if k = a + 1 then v.extractLsb' 0 8 else if k = a then v.extractLsb' 8 8 else byteAt s k := by
  have h0 : s.backing a = .ram := by simpa using backing_of_ramAt hr 0 (by omega)
  have h1 : s.backing (a + 1) = .ram := backing_of_ramAt hr 1 (by omega)
  simp only [byteAt, read_store16 _ _ _ hm, h0, h1, and_true, BitVec.toNat_inj]

/-- A byte of memory after a store of a word. -/
theorem byteAt_store32 (hm : Memory.wf s.mem = true) (hr : s.ramAt a 4 = true) (v : Word) (k : Word) :
    byteAt (s.store32 a v) k =
      if k = a + 3 then v.extractLsb' 0 8 else if k = a + 2 then v.extractLsb' 8 8
      else if k = a + 1 then v.extractLsb' 16 8 else if k = a then v.extractLsb' 24 8 else byteAt s k := by
  have h0 : s.backing a = .ram := by simpa using backing_of_ramAt hr 0 (by omega)
  have h1 : s.backing (a + 1) = .ram := backing_of_ramAt hr 1 (by omega)
  have h2 : s.backing (a + 2) = .ram := backing_of_ramAt hr 2 (by omega)
  have h3 : s.backing (a + 3) = .ram := backing_of_ramAt hr 3 (by omega)
  simp only [byteAt, read_store32 _ _ _ hm, h0, h1, h2, h3, and_true, BitVec.toNat_inj]

theorem storesRam_store8 (hm : Memory.wf s.mem = true) (hr : s.ramAt a 1 = true) (b : Byte) :
    StoresRam a [b] s (s.store8 a b) where
  stored j c hj := by
    match j with
    | 0 =>
      cases hj
      simp [byteAt_store8 hm hr]
  kept := memKeptBut_store8 hm a b
  devLog := store8_devLog_of_ramAt hr b

theorem storesRam_store16 (hm : Memory.wf s.mem = true) (hr : s.ramAt a 2 = true) (v : Half) :
    StoresRam a [v.extractLsb' 8 8, v.extractLsb' 0 8] s (s.store16 a v) where
  stored j c hj := by
    match j with
    | 0 | 1 =>
      cases hj
      simp [byteAt_store16 hm hr]
  kept := memKeptBut_store16 hm a v
  devLog := store16_devLog_of_ramAt hr v

theorem storesRam_store32 (hm : Memory.wf s.mem = true) (hr : s.ramAt a 4 = true) (v : Word) :
    StoresRam a [v.extractLsb' 24 8, v.extractLsb' 16 8, v.extractLsb' 8 8, v.extractLsb' 0 8] s (s.store32 a v) where
  stored j c hj := by
    match j with
    | 0 | 1 | 2 | 3 =>
      cases hj
      simp [byteAt_store32 hm hr]
  kept := memKeptBut_store32 hm a v
  devLog := store32_devLog_of_ramAt hr v

/-- A field within a field of a bit vector. -/
theorem field_of_field {w : Nat} (x : BitVec w) {i k j l : Nat} (h : j + l ≤ k) :
    (x.extractLsb' i k).extractLsb' j l = x.extractLsb' (i + j) l := by
  apply BitVec.eq_of_getLsbD_eq
  intro n hn
  have hin : j + n < k := by omega
  simp [hn, hin, Nat.add_assoc]

/-- A store of a register's low halfword. -/
theorem storesRam_storeLowHalf (hm : Memory.wf s.mem = true) (hr : s.ramAt a 2 = true) (v : Word) :
    StoresRam a [v.extractLsb' 8 8, v.extractLsb' 0 8] s (s.store16 a (v.extractLsb' 0 16)) := by
  have hhigh : (v.extractLsb' 0 16).extractLsb' 8 8 = v.extractLsb' 8 8 := field_of_field v (by decide)
  have hlow : (v.extractLsb' 0 16).extractLsb' 0 8 = v.extractLsb' 0 8 := field_of_field v (by decide)
  rw [← hhigh, ← hlow]
  exact storesRam_store16 hm hr _

/-! ### What a store to plain memory leaves -/

/-- An access that no device saw. -/
theorem keepsBut_of_no_device (h : KeepsBut [.mem, .lock, .devices] s t) (hlog : t.devLog = s.devLog) :
    KeepsBut [.mem, .lock] s t := by
  simpa [KeepsBut, hlog] using h

/-- A store that no device saw and that leaves the LOCK bit. -/
theorem keepsBut_of_same_lock (h : KeepsBut [.mem, .lock, .devices] s t) (hlog : t.devLog = s.devLog)
    (hlock : t.lock = s.lock) : KeepsBut [.mem] s t := by
  simpa [KeepsBut, hlog, hlock] using h

/-- An instruction whose store to plain memory is aligned leaves the bytes, the updated base and the rest as it was. -/
theorem storesBytes_of_storeAs {ok : Bool} {base : Option (Reg × Word)} {len : Word}
    (h : exec i s = s.storeAs ok a n u len) (hok : ok = true) (hr : s.ramAt a n = true) (hbytes : StoresRam a bytes s u)
    (hrest : StoreLeaves base false len s (u.advance len)) : StoresBytes i s a bytes base len := by
  obtain ⟨hbase, hregs, hkeeps, hlock, hpc⟩ := hrest
  have hstore : StoresRam a bytes s (u.advance len) := hbytes.congr rfl rfl
  refine completes_of_access h hok (backed_of_ramAt hr) ⟨hstore.stored, hstore.kept, hbase, hregs, ?_, hpc⟩
  exact keepsBut_of_same_lock hkeeps hstore.devLog (by simpa using hlock)

/-- A store without an update leaves the LOCK bit. -/
theorem storeLeaves_plain (h : StateButAccess s u) (hl : u.lock = s.lock) (len : Word) :
    StoreLeaves none false len s (u.advance len) :=
  storeLeaves_none h (by simpa using hl) len

/-- Settles O25: each store of the two addressing modes is `State.storeAs` of `store8`, `store16` or `store32`. -/
theorem storesWriteBigEndianBytesOrRaiseAe : Obligations.StoresWriteBigEndianBytesOrRaiseAe := by
  refine ⟨fun a b => ⟨spelled16_of_encode rfl, spelled16_of_encode rfl, spelled16_of_encode rfl⟩,
    fun a b x => ⟨spelled32_of_encode rfl, spelled32_of_encode rfl, spelled32_of_encode rfl⟩, ?_⟩
  rintro s r b x a len hm i8 i16 w (⟨rfl, rfl, rfl, rfl, rfl⟩ | ⟨rfl, rfl, rfl, rfl, rfl⟩)
  all_goals
    refine ⟨fun hr => ?_, fun ha hr => ?_, fun ha => exec_of_misaligned rfl (mod_two_ne_zero_of_odd ha),
      fun ha hr => ?_, fun ha => exec_of_misaligned rfl ha⟩
    · exact storesBytes_of_storeAs rfl rfl hr (storesRam_store8 hm hr _)
        (storeLeaves_plain (stateButAccess_store8 ..) (store8_lock ..) _)
    · exact storesBytes_of_storeAs rfl (aligned2_of_even ha) hr (storesRam_storeLowHalf hm hr _)
        (storeLeaves_plain (stateButAccess_store16 ..) (store16_lock ..) _)
    · exact storesBytes_of_storeAs rfl (aligned4_of_mod ha) hr (storesRam_store32 hm hr _)
        (storeLeaves_plain (stateButAccess_store32 ..) (store32_lock ..) _)

/-! ### The forms that update their base (R143, R155, R156, R161) -/

/-- A store of a word after its base was updated stores the updated base where that is the register stored (decision D13). -/
theorem storesRam_setReg_store32 (hm : Memory.wf s.mem = true) (hr : s.ramAt a 4 = true) {r b : Reg} {v : Word}
    (hv : v = if r = b then a else s.reg r) :
    StoresRam a [v.extractLsb' 24 8, v.extractLsb' 16 8, v.extractLsb' 8 8, v.extractLsb' 0 8] s
      ((s.setReg b a).store32 a ((s.setReg b a).reg r)) := by
  rw [reg_setReg, ← hv]
  have hbase : (s.setReg b a).ramAt a 4 = true := (ramAt_congr (setReg_memMap ..) a 4).trans hr
  have hwf : Memory.wf (s.setReg b a).mem = true := by rwa [setReg_mem]
  exact (storesRam_store32 hwf hbase v).of_same (setReg_mem ..) (setReg_devLog ..)

/-- An access to plain memory that makes no more than its read shows no device anything. -/
theorem devLog_of_load {ok : Bool} (h : exec i s = s.access ok a n (.next u)) (hok : ok = true) (hr : s.ramAt a n = true)
    (hlog : u.devLog = (s.afterLoad a n).devLog) (ht : exec i s = .next t) : t.devLog = s.devLog := by
  rw [ht, access_of_backed hok (backed_of_ramAt hr)] at h
  cases h
  rw [hlog, afterLoad_of_ramAt hr]

/-- LD @R+ on plain memory shows no device its read. -/
theorem ldInc_of_ramAt {d b : Reg} (ha : (s.reg b).toNat % 4 = 0) (hr : s.ramAt (s.reg b) 4 = true) :
    Completes (.ldInc d b) s fun t =>
      (d ≠ b → t.reg d = s.load32 (s.reg b) ∧ t.reg b = s.reg b + 4) ∧ (d = b → t.reg b = s.load32 (s.reg b) + 4) ∧
      RegsKeptBut [d, b] s t ∧ KeepsBut [] s t ∧ t.pc = s.pc + 2 := by
  obtain ⟨t, hexec, hload, hsame, hregs, hkeeps, hpc⟩ := ldInc_of_backed (d := d) ha (backed_of_ramAt hr)
  have hlog : t.devLog = s.devLog := devLog_of_load rfl (aligned4_of_mod ha) hr (by simp [State.eaIndirect]) hexec
  exact ⟨t, hexec, hload, hsame, hregs, by simpa [KeepsBut, hlog] using hkeeps, hpc⟩

/-- Settles O26: LD @R+ loads and then updates; ST @+R and ST @-R update and then store, STH @R+ stores and then updates. -/
theorem updatingFormsAccessAndUpdateTheirBase : Obligations.UpdatingFormsAccessAndUpdateTheirBase := by
  refine ⟨fun d b => ⟨spelled16_of_encode rfl, spelled16_of_encode rfl, spelled16_of_encode rfl, spelled16_of_encode rfl⟩,
    fun s d b hm => ⟨fun ha hr => ?_, fun ha => exec_of_misaligned rfl ha, ?_, fun ha hr => ?_, fun ha => ?_⟩⟩
  · rw [← load32_eq_byteAt hr]
    exact ldInc_of_ramAt ha hr
  · rintro i a v (⟨rfl, rfl⟩ | ⟨rfl, rfl⟩) hv
    all_goals
      refine ⟨fun ha hr => ?_, fun ha => exec_of_misaligned rfl ha⟩
      exact storesBytes_of_storeAs rfl (aligned4_of_mod ha) hr (storesRam_setReg_store32 hm hr hv)
        (storeLeaves_updateFirst (stateButAccess_store32 ..) (by simp) 2)
  · exact storesBytes_of_storeAs rfl (aligned2_of_even ha) hr
      ((storesRam_storeLowHalf hm hr _).congr (setReg_mem ..) (setReg_devLog ..))
      (storeLeaves_updateLast (stateButAccess_store16 ..) (store16_lock ..) 2)
  · exact exec_of_misaligned rfl (mod_two_ne_zero_of_odd ha)

/-! ### LOCK and UNLOCK (R153, R163) -/

/-- An instruction that ends in `writeBack` of a state that differs from `s` in no register changes what that state differs in. -/
theorem writesReg_of_writeBack_after {d : Reg} {v len : Word} {parts : List Part} (h : exec i s = u.writeBack d v len)
    (hregs : RegsKeptBut [] s u) (hsm : u.psw.sm = s.psw.sm) (hkeeps : KeepsBut parts s u) (hpc : u.pc = s.pc) :
    WritesReg i s d v len parts := by
  refine ⟨_, h, by simp, ?_, by simpa [KeepsBut] using hkeeps, by simp [hpc]⟩
  exact hregs.trans (regsKeptBut_setReg u d v) hsm (by simp) (by simp)

/-- LOCK on plain memory shows no device its read. -/
theorem lock_of_ramAt {d b : Reg} (ha : (s.reg b).toNat % 4 = 0) (hr : s.ramAt (s.reg b) 4 = true) :
    WritesReg (.lock d b) s d (s.load32 (s.reg b)) 2 [.lock] := by
  have hexec : exec (.lock d b) s = ({ s.afterLoad (s.reg b) 4 with lock := true } : State).writeBack d (s.load32 (s.reg b)) 2 :=
    access_of_backed (aligned4_of_mod ha) (backed_of_ramAt hr)
  rw [afterLoad_of_ramAt hr] at hexec
  exact writesReg_of_writeBack_after hexec (regsKeptBut_of_banks _ rfl rfl rfl rfl) rfl (by simp [KeepsBut]) rfl

/-- An instruction whose store to plain memory is aligned and clears the LOCK bit leaves the bytes and the rest as it was. -/
theorem completes_of_clearingStore {ok : Bool} {len : Word} (h : exec i s = s.access ok a n (.next (u.advance len)))
    (hok : ok = true) (hr : s.ramAt a n = true) (hbytes : StoresRam a bytes s u) (hrest : StateButAccess s u)
    (hlock : u.lock = false) :
    Completes i s fun t => StoresRam a bytes s t ∧ t.lock = false ∧ RegsKeptBut [] s t ∧ KeepsBut [.mem, .lock] s t ∧
      t.pc = s.pc + len := by
  obtain ⟨-, hregs, hkeeps, -, hpc⟩ := storeLeaves_none (clears := true) hrest (by simpa using hlock) len
  have hstore : StoresRam a bytes s (u.advance len) := hbytes.congr rfl rfl
  exact completes_of_access h hok (backed_of_ramAt hr)
    ⟨hstore, hlock, hregs, keepsBut_of_no_device hkeeps hstore.devLog, hpc⟩

/-- UNLOCK while the LOCK bit is 0 makes no access and checks its address nevertheless (decision D25). -/
theorem exec_unlock_of_unlocked {r b : Reg} (hl : s.lock = false) :
    exec (.unlock r b) s =
      if aligned4 (s.reg b) then .next (({ s with lock := false } : State).advance 2) else .next (s.eitEntry .ae) := by
  simp [exec, execUnlock, hl, Config.unlockAEWhenClear, State.eaIndirect]

theorem exec_unlock_of_misaligned {r b : Reg} (ha : (s.reg b).toNat % 4 ≠ 0) :
    exec (.unlock r b) s = .next (s.eitEntry .ae) := by
  cases hl : s.lock
  · rw [exec_unlock_of_unlocked hl, aligned4_eq_decide, decide_eq_false ha]
    rfl
  · exact exec_of_misaligned (if_pos hl) ha

/-- Settles O27: LOCK is a load that sets the LOCK bit, UNLOCK a store that clears it, or the write of the LOCK bit alone. -/
theorem lockLoadsAndUnlockStoresUnderTheLockBit : Obligations.LockLoadsAndUnlockStoresUnderTheLockBit := by
  refine ⟨fun d b => ⟨spelled16_of_encode rfl, spelled16_of_encode rfl⟩, fun s d b hm =>
    ⟨fun ha hr => ⟨?_, (lock_of_backed ha (backed_of_ramAt hr)).2⟩, fun ha hl hr => ?_, fun ha hl => ?_,
      fun ha => ⟨exec_of_misaligned rfl ha, exec_unlock_of_misaligned ha⟩⟩⟩
  · rw [← load32_eq_byteAt hr]
    exact lock_of_ramAt ha hr
  · obtain ⟨t, hexec, hbytes, hlock, hregs, hkeeps, hpc⟩ := completes_of_clearingStore (i := .unlock d b) (if_pos hl)
      (aligned4_of_mod ha) hr ((storesRam_store32 hm hr (s.reg d)).congr rfl rfl)
      ((stateButAccess_store32 s (s.reg b) (s.reg d)).withLock false) rfl
    refine ⟨t, hexec, hlock, hregs, hkeeps, hpc, hbytes.kept, ?_, hbytes.stored 1 _ rfl, hbytes.stored 2 _ rfl,
      hbytes.stored 3 _ rfl⟩
    simpa [State.eaIndirect] using hbytes.stored 0 _ rfl
  · refine ⟨_, (exec_unlock_of_unlocked hl).trans (if_pos (aligned4_of_mod ha)), rfl, ?_, by simp [KeepsBut], rfl⟩
    exact regsKeptBut_of_banks _ rfl rfl rfl rfl

end Sys2Proof.Machine
end

section
/-! PROOFS. Bit operation instructions (49_bit_operation.md): BSET, BCLR, BTST, SETPSW and CLRPSW.

BSET and BCLR are `State.modifyByte`: on plain memory a store of the byte that memory held, with the mask's one bit set or cleared,
and the LOCK bit 0 afterwards. -/

namespace Sys2Proof.Machine

variable {s : State} {i : Instr} {a : Word}

/-! ### BSET and BCLR (R390, R391) -/

/-- The mask of a bit position is the one bit that it names, counted from the most significant end. -/
theorem getLsbD_bitMask (p : BitVec 3) (n : Nat) : (bitMask p).getLsbD n = decide (n = 7 - p.toNat) := by
  have htwo : bitMask p = BitVec.twoPow 8 (7 - p.toNat) := by simp [bitMask, BitVec.twoPow]
  rw [htwo, BitVec.getLsbD_twoPow]
  simp [show 7 - p.toNat < 8 by omega, eq_comm]

/-- BSET sets the bit named, every other bit as it was. -/
theorem getLsbD_or_bitMask (b : Byte) (p : BitVec 3) (n : Nat) :
    (b ||| bitMask p).getLsbD n = if n = 7 - p.toNat then true else b.getLsbD n := by
  rw [BitVec.getLsbD_or, getLsbD_bitMask]
  split <;> simp [*]

/-- BCLR clears the bit named, every other bit as it was. -/
theorem getLsbD_and_not_bitMask (b : Byte) (p : BitVec 3) {n : Nat} (hn : n < 8) :
    (b &&& ~~~ bitMask p).getLsbD n = if n = 7 - p.toNat then false else b.getLsbD n := by
  rw [BitVec.getLsbD_and, BitVec.getLsbD_not, getLsbD_bitMask]
  split <;> simp [*]

/-- The read-modify-write of a byte of plain memory is a store of the modified byte between two writes of the LOCK bit. -/
theorem modifyByte_of_ramAt (hr : s.ramAt a 1 = true) (f : Byte → Byte) :
    s.modifyByte a f = { ({ s with lock := true } : State).store8 a (f (byteAt s a)) with lock := false } := by
  have hlocked : ({ s with lock := true } : State).ramAt a 1 = true := (ramAt_congr rfl a 1).trans hr
  rw [State.modifyByte, afterLoad_of_ramAt hlocked, load8_of_ramAt hlocked]
  rfl

theorem storesRam_modifyByte (hm : Memory.wf s.mem = true) (hr : s.ramAt a 1 = true) (f : Byte → Byte) :
    StoresRam a [f (byteAt s a)] s (s.modifyByte a f) := by
  have hlocked : ({ s with lock := true } : State).ramAt a 1 = true := (ramAt_congr rfl a 1).trans hr
  have hstore := storesRam_store8 (s := { s with lock := true }) hm hlocked (f (byteAt s a))
  rw [modifyByte_of_ramAt hr]
  exact (hstore.of_same (s := s) rfl rfl).congr rfl rfl

/-- BSET and BCLR on plain memory leave the modified byte, every other byte as it was, and the LOCK bit 0. -/
theorem completes_of_modifyAs {f : Byte → Byte} (h : exec i s = s.modifyAs a f) (hm : Memory.wf s.mem = true)
    (hr : s.ramAt a 1 = true) :
    Completes i s fun t => byteAt t a = f (byteAt s a) ∧ MemKeptBut a 1 s t ∧ t.lock = false ∧ RegsKeptBut [] s t ∧
      KeepsBut [.mem, .lock] s t ∧ t.pc = s.pc + 4 := by
  obtain ⟨t, hexec, hbytes, hlock, hregs, hkeeps, hpc⟩ :=
    completes_of_clearingStore h rfl hr (storesRam_modifyByte hm hr f) (stateButAccess_modifyByte ..) (modifyByte_lock ..)
  exact ⟨t, hexec, by simpa using hbytes.stored 0 _ rfl, hbytes.kept, hlock, hregs, hkeeps, hpc⟩

theorem exec_bset (p : BitVec 3) (x : BitVec 16) (r : Reg) (s : State) :
    exec (.bset p x r) s = s.modifyAs (s.reg r + x.signExtend 32) fun b => b ||| bitMask p := rfl

theorem exec_bclr (p : BitVec 3) (x : BitVec 16) (r : Reg) (s : State) :
    exec (.bclr p x r) s = s.modifyAs (s.reg r + x.signExtend 32) fun b => b &&& ~~~ bitMask p := rfl

/-- Settles O40: the modified byte is read off bit by bit. -/
theorem bsetAndBclrChangeOneBitOfAByte : Obligations.BsetAndBclrChangeOneBitOfAByte := by
  refine ⟨fun p x r => ⟨spelled32_of_encode rfl, spelled32_of_encode rfl⟩, ?_⟩
  rintro s p x r hm i bit (⟨rfl, rfl⟩ | ⟨rfl, rfl⟩) hr
  · obtain ⟨t, hexec, hbyte, hrest⟩ := completes_of_modifyAs (exec_bset p x r s) hm hr
    exact ⟨t, hexec, fun n _ => by rw [hbyte, getLsbD_or_bitMask], hrest⟩
  · obtain ⟨t, hexec, hbyte, hrest⟩ := completes_of_modifyAs (exec_bclr p x r s) hm hr
    exact ⟨t, hexec, fun n hn => by rw [hbyte, getLsbD_and_not_bitMask _ _ hn], hrest⟩

/-! ### BTST (R392) -/

/-- The bit that BTST tests, read off the unsigned value. -/
theorem testBit_eq_decide (x : Word) (p : BitVec 3) : testBit x p = decide (x.toNat / 2 ^ (7 - p.toNat) % 2 = 1) := by
  rw [testBit, BitVec.getLsbD, Nat.testBit_eq_decide_div_mod_eq]

/-- Settles O41: BTST ends in the write of the tested bit to C. -/
theorem btstCopiesABitToTheConditionBit : Obligations.BtstCopiesABitToTheConditionBit := by
  refine ⟨fun p r => spelled16_of_encode rfl, fun s p r => ?_⟩
  rw [← testBit_eq_decide]
  exact writesC_of_writeC rfl

/-! ### SETPSW and CLRPSW (R394, R395) -/

/-- An instruction that ends in a new PSW with the backup bits kept changes SM, IE, C and the program counter only. -/
theorem completes_of_withPsw {p : Psw} (h : exec i s = .next (({ s with psw := p } : State).advance 2))
    (hbackup : p.bsm = s.psw.bsm ∧ p.bie = s.psw.bie ∧ p.bc = s.psw.bc) :
    Completes i s fun t => t.psw = p ∧ BanksKept s t ∧ KeepsBut [.c, .smIe] s t ∧ t.pc = s.pc + 2 :=
  ⟨_, h, rfl, ⟨rfl, rfl, rfl⟩, by simp [KeepsBut, hbackup], rfl⟩

/-- Settles O42: both instructions end in the PSW that their rule gives. -/
theorem setpswAndClrpswReachSmIeAndC : Obligations.SetpswAndClrpswReachSmIeAndC := by
  refine fun s x => ⟨spelled8_of_encode rfl, spelled8_of_encode rfl, ?_, ?_⟩
  · obtain ⟨t, hexec, hpsw, hrest⟩ := completes_of_withPsw (i := .setpsw x) (s := s) rfl ⟨rfl, rfl, rfl⟩
    exact ⟨t, hexec, by rw [hpsw], by rw [hpsw], by rw [hpsw], hrest⟩
  · obtain ⟨t, hexec, hpsw, hrest⟩ := completes_of_withPsw (i := .clrpsw x) (s := s) rfl ⟨rfl, rfl, rfl⟩
    exact ⟨t, hexec, by rw [hpsw], by rw [hpsw], by rw [hpsw], hrest⟩

end Sys2Proof.Machine
end

section
/-! PROOFS. The invariant after reset, the frame of the LOCK bit, and the frame of C and SM (10_state.md R27, R29, R46).

`Closed.yields_exec` gives the frame of the LOCK bit. C and SM lie in the PSW, which several endings of an instruction write; so
`pswMoves_exec` walks through the endings once more, with the list `pswWritten` of the instructions that write C, or C and SM. -/

namespace Sys2Proof.Machine

variable {s t u : State} {i : Instr} {parts : List Part}

/-! ### Reset -/

/-- Settles O6: memory lists nothing, and both addresses are 0. -/
theorem resetSatisfiesTheInvariant : Obligations.ResetSatisfiesTheInvariant := ⟨reset_mem_wf, rfl, rfl⟩

/-! ### The LOCK bit -/

/-- The LOCK bit survives every write but its own. -/
theorem closed_lock (b : Bool) (hparts : .lock ∉ parts) : Closed (fun s => s.lock = b) parts where
  setReg _ _ h := by rw [setReg_lock, h]
  spi _ h := h
  spu _ h := h
  psw _ h := h
  bpc _ h := h
  fpsr _ h := h
  logAccess _ _ _ h := by rw [logAccess_lock, h]
  advance _ h := h
  jump _ h := h
  acc _ _ _ h := h
  lock hl := absurd hl hparts
  writeByte _ _ _ _ h := by rw [writeByte_lock, h]

/-- The frame of the LOCK bit. -/
theorem exec_lock (h : exec i s = .next t) (hi : .lock ∉ partsWritten i) : t.lock = s.lock :=
  ((closed_lock s.lock hi).yields_exec rfl).next h

/-- The instructions that write the LOCK bit (10_state.md R46). -/
theorem writesLock_cases (h : .lock ∈ partsWritten i) :
    (∃ d r : Reg, i = .lock d r) ∨ (∃ a b : Reg, i = .unlock a b) ∨
    (∃ (p : BitVec 3) (x : BitVec 16) (r : Reg), i = .bset p x r ∨ i = .bclr p x r) := by
  cases i with
  | lock d r => exact .inl ⟨d, r, rfl⟩
  | unlock a b => exact .inr (.inl ⟨a, b, rfl⟩)
  | bset p x r | bclr p x r => exact .inr (.inr ⟨p, x, r, by simp⟩)
  | _ => simp [partsWritten] at h

/-- Settles O10: of an instruction that does not write the LOCK bit, each write keeps it. -/
theorem onlyLockingInstructionsChangeTheLockBit : Obligations.OnlyLockingInstructionsChangeTheLockBit := by
  intro i s t h hne
  by_contra hi
  exact hne (exec_lock h fun hlock => hi (writesLock_cases hlock))

/-! ### The condition bit and SM -/

/-- Which of C and SM an instruction may write otherwise than by entering AE or FPE (10_state.md R27, R29). -/
def pswWritten : Instr → List Part
  | .addv .. | .addx .. | .subv .. | .subx .. | .cmp .. | .cmpu .. | .addv3 .. | .cmpi .. | .cmpui .. | .btst .. => [.c]
  | .trap .. => [.c]
  | .setpsw .. | .clrpsw .. | .rte => [.c, .smIe]
  | .mvtc _ cr => if cr = 0 then [.c, .smIe] else []
  | _ => []

/-- From `s` to `t` the condition bit stayed, or AE or FPE was entered with it in BC (60_exceptions.md R405). -/
def ConditionKept (s t : State) : Prop :=
  t.psw.c = s.psw.c ∨ (t.psw.bc = s.psw.c ∧ t.psw.c = false ∧ (t.pc = Config.vecAE ∨ t.pc = Config.vecFPE))

/-- From `s` to `t` the condition bit and SM were kept, apart from the listed ones. -/
def PswMoves (parts : List Part) (s t : State) : Prop :=
  (.c ∉ parts → ConditionKept s t) ∧ (.smIe ∉ parts → t.psw.sm = s.psw.sm)

theorem pswMoves_of_same (h : t.psw = s.psw) : PswMoves parts s t := ⟨fun _ => .inl (by rw [h]), fun _ => by rw [h]⟩

/-- An instruction that may write C keeps SM. -/
theorem pswMoves_of_sm (h : t.psw.sm = s.psw.sm) : PswMoves [.c] s t := ⟨fun hc => absurd List.mem_cons_self hc, fun _ => h⟩

theorem pswMoves_all : PswMoves [.c, .smIe] s t := ⟨fun hc => absurd (by simp) hc, fun hsm => absurd (by simp) hsm⟩

/-- The entry of AE and of FPE keeps SM (decision D3). -/
theorem pswMoves_ae (h : u.psw = s.psw) : PswMoves parts s (u.eitEntry .ae) :=
  ⟨fun _ => .inr ⟨congrArg Psw.c h, rfl, .inl rfl⟩, fun _ => by rw [eitEntry_psw, h]; rfl⟩

theorem pswMoves_fpe (h : u.psw = s.psw) : PswMoves parts s (u.eitEntry .fpe) :=
  ⟨fun _ => .inr ⟨congrArg Psw.c h, rfl, .inr rfl⟩, fun _ => by rw [eitEntry_psw, h]; rfl⟩

theorem pswMoves_writeBack {d : Reg} {v len : Word} (h : u.psw = s.psw) : Yields (PswMoves parts s) (u.writeBack d v len) :=
  pswMoves_of_same (by rw [advance_psw, setReg_psw, h])

theorem pswMoves_writeBackC {d : Reg} {v len : Word} {c : Bool} : Yields (PswMoves [.c] s) (s.writeBackC d v c len) :=
  pswMoves_of_sm (by simp)

theorem pswMoves_writeC {c : Bool} {len : Word} : Yields (PswMoves [.c] s) (s.writeC c len) := pswMoves_of_sm rfl

theorem pswMoves_branchIf {taken : Bool} {target len : Word} : Yields (PswMoves parts s) (s.branchIf taken target len) :=
  yields_ite (pswMoves_of_same rfl) (pswMoves_of_same rfl)

theorem pswMoves_access {ok : Bool} {a : Word} {n : Nat} {done : Result} (h : Yields (PswMoves parts s) done) :
    Yields (PswMoves parts s) (s.access ok a n done) :=
  yields_ite (yields_ite h trivial) (pswMoves_ae rfl)

theorem pswMoves_loadTo {ok : Bool} {a : Word} {n : Nat} {d : Reg} {v len : Word} :
    Yields (PswMoves parts s) (s.loadTo ok a n d v len) :=
  pswMoves_access (pswMoves_writeBack (afterLoad_psw ..))

theorem pswMoves_storeAs {ok : Bool} {a : Word} {n : Nat} {len : Word} (hu : u.psw = s.psw) :
    Yields (PswMoves parts s) (s.storeAs ok a n u len) :=
  pswMoves_access (pswMoves_of_same hu)

theorem pswMoves_modifyAs {a : Word} {f : Byte → Byte} : Yields (PswMoves parts s) (s.modifyAs a f) :=
  pswMoves_access (pswMoves_of_same (modifyByte_psw ..))

theorem pswMoves_fpEnd {d : Reg} {o : FpOutcome} : Yields (PswMoves parts s) (s.fpEnd d o) :=
  yields_ite (pswMoves_fpe rfl) (pswMoves_writeBack rfl)

theorem pswMoves_mvfc {d : Reg} {cr : CReg} : Yields (PswMoves parts s) (execMvfc d cr s) := by
  unfold execMvfc
  split
  · exact pswMoves_writeBack rfl
  · trivial

/-- MVTC writes the PSW as control register 0 only. -/
theorem pswMoves_mvtc {r : Reg} {cr : CReg} : Yields (PswMoves (pswWritten (.mvtc r cr)) s) (execMvtc r cr s) := by
  unfold execMvtc
  split
  · next h =>
    obtain ⟨rfl, -⟩ | ⟨-, rfl⟩ | ⟨-, rfl⟩ | ⟨-, rfl⟩ | ⟨-, rfl⟩ | ⟨-, rfl⟩ := writeCR_cases h
    · exact pswMoves_all
    all_goals exact pswMoves_of_same rfl
  · trivial

/-- An instruction changes C and SM as `pswWritten` says, or enters AE or FPE. -/
theorem pswMoves_exec (i : Instr) (s : State) : Yields (PswMoves (pswWritten i) s) (exec i s) := by
  cases i with
  | subv | addv | subx | addx | addv3 => exact pswMoves_writeBackC
  | cmp | cmpu | cmpi | cmpui | btst => exact pswMoves_writeC
  | trap => exact pswMoves_of_sm rfl
  | setpsw | clrpsw | rte => exact pswMoves_all
  | mvtc => exact pswMoves_mvtc
  | mvfc => exact pswMoves_mvfc
  | sub | add | neg | not | and | xor | or | srl | mv | sra | sll | mul | addi | ldi8 | srli | srai | slli
  | mvfachi | mvfaclo | mvfacmi | add3 | and3 | xor3 | or3 | srl3 | sra3 | sll3 | ldi16 | seth | ld24 =>
    exact pswMoves_writeBack rfl
  | divu | remu => exact yields_ite (pswMoves_of_same rfl) (pswMoves_writeBack rfl)
  | div | rem =>
    exact yields_ite (pswMoves_of_same rfl) (yields_ite (pswMoves_writeBack rfl) (pswMoves_writeBack rfl))
  | mulhi | mullo | mulwhi | mulwlo | machi | maclo | macwhi | macwlo | rac | rach | mvtachi | mvtaclo | nop | nopPar
  | bra8 | bra24 | jmp => exact pswMoves_of_same rfl
  | bl8 | bl24 | jl => exact pswMoves_of_same (setReg_psw ..)
  | bc8 | bnc8 | bc24 | bnc24 | beq | bne | beqz | bnez | bltz | bgez | blez | bgtz => exact pswMoves_branchIf
  | ld | ldh | lduh | ldDisp | ldhDisp | lduhDisp => exact pswMoves_loadTo
  | ldb | ldub | ldbDisp | ldubDisp => exact pswMoves_loadTo (ok := true)
  | ldInc => exact pswMoves_access (pswMoves_writeBack (by rw [setReg_psw, afterLoad_psw]))
  | lock => exact pswMoves_access (pswMoves_writeBack (afterLoad_psw ..))
  | stb | stbDisp => exact pswMoves_storeAs (ok := true) (store8_psw ..)
  | sth | sthDisp => exact pswMoves_storeAs (store16_psw ..)
  | st | stDisp => exact pswMoves_storeAs (store32_psw ..)
  | sthInc => exact pswMoves_storeAs (by rw [setReg_psw, store16_psw])
  | stPreInc | stPreDec => exact pswMoves_storeAs (by rw [store32_psw, setReg_psw])
  | unlock =>
    exact yields_ite (pswMoves_storeAs (store32_psw ..)) (yields_ite (pswMoves_of_same rfl) (pswMoves_ae rfl))
  | bset | bclr => exact pswMoves_modifyAs
  | fadd | fsub | fmul | fdiv | fmadd | fmsub | fcmp | fcmpe | itof | utof | ftoi | ftos => exact pswMoves_fpEnd

theorem pswWritten_mvtc (r : Reg) (cr : CReg) : pswWritten (.mvtc r cr) = if cr = 0 then [.c, .smIe] else [] := rfl

/-- The instructions that may write SM (10_state.md R27). -/
theorem writesSm_cases (h : .smIe ∈ pswWritten i) :
    (∃ x : BitVec 8, i = .setpsw x ∨ i = .clrpsw x) ∨ (∃ r : Reg, i = .mvtc r 0) ∨ i = .rte := by
  cases i with
  | setpsw x | clrpsw x => exact .inl ⟨x, by simp⟩
  | mvtc r cr =>
    by_cases hcr : cr = 0
    · exact .inr (.inl ⟨r, by rw [hcr]⟩)
    · exact absurd h (by rw [pswWritten_mvtc, if_neg hcr]; exact List.not_mem_nil)
  | rte => exact .inr (.inr rfl)
  | addv | addx | subv | subx | cmp | cmpu | addv3 | cmpi | cmpui | btst | trap =>
    exact absurd h (List.not_mem_cons_of_ne_of_not_mem nofun List.not_mem_nil)
  | _ => exact absurd h List.not_mem_nil

/-- The instructions that may write the condition bit (10_state.md R29). -/
theorem writesC_cases (h : .c ∈ pswWritten i) :
    (∃ a b : Reg, i = .addv a b ∨ i = .addx a b ∨ i = .subv a b ∨ i = .subx a b ∨ i = .cmp a b ∨ i = .cmpu a b) ∨
    (∃ (a b : Reg) (x : BitVec 16), i = .addv3 a b x ∨ i = .cmpi a x ∨ i = .cmpui a x) ∨
    (∃ (p : BitVec 3) (r : Reg), i = .btst p r) ∨ (∃ x : BitVec 8, i = .setpsw x ∨ i = .clrpsw x) ∨
    (∃ r : Reg, i = .mvtc r 0) ∨ i = .rte ∨ ∃ n : BitVec 4, i = .trap n := by
  cases i with
  | addv a b | addx a b | subv a b | subx a b | cmp a b | cmpu a b => exact .inl ⟨a, b, by simp⟩
  | addv3 a b x => exact .inr (.inl ⟨a, b, x, by simp⟩)
  | cmpi a x | cmpui a x => exact .inr (.inl ⟨a, a, x, by simp⟩)
  | btst p r => exact .inr (.inr (.inl ⟨p, r, rfl⟩))
  | setpsw x | clrpsw x => exact .inr (.inr (.inr (.inl ⟨x, by simp⟩)))
  | mvtc r cr =>
    by_cases hcr : cr = 0
    · exact .inr (.inr (.inr (.inr (.inl ⟨r, by rw [hcr]⟩))))
    · exact absurd h (by rw [pswWritten_mvtc, if_neg hcr]; exact List.not_mem_nil)
  | rte => exact .inr (.inr (.inr (.inr (.inr (.inl rfl)))))
  | trap n => exact .inr (.inr (.inr (.inr (.inr (.inr ⟨n, rfl⟩)))))
  | _ => exact absurd h List.not_mem_nil

/-- Settles O13: an instruction that is not listed keeps C and SM (`pswMoves_exec`), or enters AE or FPE. -/
theorem onlyListedInstructionsChangeTheConditionBitOrSm : Obligations.OnlyListedInstructionsChangeTheConditionBitOrSm := by
  intro i s t h
  obtain ⟨hc, hsm⟩ : PswMoves (pswWritten i) s t := (pswMoves_exec i s).next h
  constructor
  · by_cases hi : .c ∈ pswWritten i
    · simpa only [or_assoc] using Or.inl (writesC_cases hi)
    · exact .inr (.inr (.inr (.inr (.inr (.inr (.inr (hc hi)))))))
  · by_cases hi : .smIe ∈ pswWritten i
    · simpa only [or_assoc] using Or.inl (writesSm_cases hi)
    · exact .inr (.inr (.inr (hsm hi)))

end Sys2Proof.Machine
end

section
/-! PROOFS. MUL, DIV, DIVU, REM and REMU (43_muldiv_shift.md R220 to R225).

A division ends in `State.writeBack` of its quotient or remainder. Those of truncating division are the pair that the rule
describes; the quotient of two words leaves the signed range for one pair of operands only. -/

namespace Sys2Proof.Machine

variable {s : State} {i : Instr} {d r : Reg}

/-- MUL writes its product, and the accumulator with a value that is drawn. -/
theorem writesReg_mul (s : State) (d r : Reg) :
    WritesReg (.mul d r) s d (BitVec.ofInt 32 ((s.reg d).toInt * (s.reg r).toInt)) 2 [.acc] :=
  writesReg_of_writeBack_after rfl (regsKeptBut_of_banks _ rfl rfl rfl rfl) rfl (by simp [KeepsBut]) rfl

/-- An instruction that only goes on leaves every register, `d` among them. -/
theorem writesReg_same_of_advance {len : Word} (h : exec i s = .next (s.advance len)) : WritesReg i s d (s.reg d) len :=
  ⟨_, h, rfl, regsKeptBut_of_banks _ rfl rfl rfl rfl, by simp [KeepsBut], rfl⟩

/-! ### Which words a division writes -/

/-- A division by 0 only goes on (R221 to R224). -/
theorem exec_division_by_zero (h0 : s.reg r = 0) (hi : i ∈ [Instr.div d r, .divu d r, .rem d r, .remu d r]) :
    exec i s = .next (s.advance 4) := by
  simp only [List.mem_cons, List.not_mem_nil, or_false] at hi
  obtain rfl | rfl | rfl | rfl := hi
  all_goals exact if_pos h0

theorem writesReg_divu (h0 : s.reg r ≠ 0) :
    WritesReg (.divu d r) s d (BitVec.ofNat 32 ((s.reg d).toNat / (s.reg r).toNat)) 4 :=
  writesReg_of_writeBack [] (if_neg h0)

theorem writesReg_remu (h0 : s.reg r ≠ 0) :
    WritesReg (.remu d r) s d (BitVec.ofNat 32 ((s.reg d).toNat % (s.reg r).toNat)) 4 :=
  writesReg_of_writeBack [] (if_neg h0)

theorem divOverflows_iff (a b : Word) : divOverflows a b = true ↔ a = 0x80000000 ∧ b = 0xFFFFFFFF := by simp [divOverflows]

theorem writesReg_div (h0 : s.reg r ≠ 0) (hov : ¬ (s.reg d = 0x80000000 ∧ s.reg r = 0xFFFFFFFF)) :
    WritesReg (.div d r) s d (BitVec.ofInt 32 ((s.reg d).toInt.tdiv (s.reg r).toInt)) 4 :=
  writesReg_of_writeBack [] ((if_neg h0).trans (if_neg (mt (divOverflows_iff _ _).mp hov)))

theorem writesReg_rem (h0 : s.reg r ≠ 0) (hov : ¬ (s.reg d = 0x80000000 ∧ s.reg r = 0xFFFFFFFF)) :
    WritesReg (.rem d r) s d (BitVec.ofInt 32 ((s.reg d).toInt.tmod (s.reg r).toInt)) 4 :=
  writesReg_of_writeBack [] ((if_neg h0).trans (if_neg (mt (divOverflows_iff _ _).mp hov)))

/-- The division whose quotient does not fit writes a value that is drawn (R225, decision D24). -/
theorem writesReg_div_rem_of_overflow (hd : s.reg d = 0x80000000) (hr : s.reg r = 0xFFFFFFFF) :
    WritesReg (.div d r) s d (Config.divOverflow s.drawIndex) 4 ∧
      WritesReg (.rem d r) s d (Config.remOverflow s.drawIndex) 4 := by
  have h0 : s.reg r ≠ 0 := by
    rw [hr]
    decide
  have hov : divOverflows (s.reg d) (s.reg r) = true := (divOverflows_iff _ _).mpr ⟨hd, hr⟩
  exact ⟨writesReg_of_writeBack [] ((if_neg h0).trans (if_pos hov)),
    writesReg_of_writeBack [] ((if_neg h0).trans (if_pos hov))⟩

/-! ### The quotient rounded toward zero -/

/-- The quotient of two words has the signed range, the one overflowing division apart (R225). -/
theorem tdiv_range {a b : Word} (hov : ¬ (a = 0x80000000 ∧ b = 0xFFFFFFFF)) :
    -2 ^ 31 ≤ a.toInt.tdiv b.toInt ∧ a.toInt.tdiv b.toInt < 2 ^ 31 := by
  rw [← BitVec.toInt_sdiv_of_ne_or_ne a b (not_and_or.mp hov)]
  exact ⟨BitVec.le_toInt _, BitVec.toInt_lt⟩

/-- The remainder has the sign of the dividend. -/
theorem tmod_sign (a b : Int) : (0 ≤ a → 0 ≤ a.tmod b) ∧ (a ≤ 0 → a.tmod b ≤ 0) := by
  refine ⟨Int.tmod_nonneg b, fun ha => ?_⟩
  have hneg : 0 ≤ (-a).tmod b := Int.tmod_nonneg b (Int.neg_nonneg_of_nonpos ha)
  rw [Int.neg_tmod] at hneg
  omega

/-- The remainder is less than the divisor. -/
theorem natAbs_tmod_lt (a : Int) {b : Int} (hb : b ≠ 0) : (a.tmod b).natAbs < b.natAbs := by
  rw [Int.natAbs_tmod]
  exact Nat.mod_lt _ (Int.natAbs_pos.mpr hb)

/-- Settles O22: MUL is a product, a division by 0 goes on, any other writes the quotient or the remainder of its division, or a
draw where the quotient does not fit. -/
theorem mulAndDivisionsWriteTheirResult : Obligations.MulAndDivisionsWriteTheirResult := by
  refine ⟨fun d r => spelled16_of_encode rfl, writesReg_mul,
    fun d r => ⟨spelled32_of_encode rfl, spelled32_of_encode rfl, spelled32_of_encode rfl, spelled32_of_encode rfl⟩,
    fun s d r => ⟨fun h0 i hi => ?_, fun h0 => ?_, fun h0 hov => ?_, fun hd hr => ?_⟩⟩
  · exact writesReg_same_of_advance (exec_division_by_zero h0 hi)
  · have hpos : 0 < (s.reg r).toNat := BitVec.toNat_pos_of_ne_zero h0
    exact ⟨_, _, writesReg_divu h0, writesReg_remu h0, (Nat.div_add_mod _ _).symm, Nat.mod_lt _ hpos⟩
  · have hne : (s.reg r).toInt ≠ 0 := mt (eq_zero_iff_toInt _).mpr h0
    obtain ⟨hnonneg, hnonpos⟩ := tmod_sign (s.reg d).toInt (s.reg r).toInt
    obtain ⟨hlow, hhigh⟩ := tdiv_range hov
    exact ⟨_, _, writesReg_div h0 hov, writesReg_rem h0 hov, (Int.mul_tdiv_add_tmod _ _).symm, natAbs_tmod_lt _ hne, hnonneg,
      hnonpos, hlow, hhigh⟩
  · exact ⟨_, _, writesReg_div_rem_of_overflow hd hr⟩

end Sys2Proof.Machine
end

section
/-! PROOFS. JL (44_branch.md R270), TRAP (45_eit_instructions.md R280), the entries of exceptions, the external interrupt and reset
(60_exceptions.md, 70_reset_and_hazards.md).

Every entry is `State.eitEntry`. The laws state what it leaves as it is; what is left is which return address it saves, and that
the saved address loses nothing where it is even. -/

namespace Sys2Proof.Machine

variable {s : State}

/-- Settles O31: JL reads its target, and is then a call. -/
theorem jlReadsItsTargetThenLinks : Obligations.JlReadsItsTargetThenLinks :=
  ⟨fun r => spelled16_of_encode rfl, fun s r => completes_of_link rfl⟩

/-! ### What an entry saves (60_exceptions.md R405 to R408) -/

/-- An even address is saved in BPC as it is (10_state.md R34). -/
theorem and_evenMask_of_even {v : Word} (h : v.getLsbD 0 = false) : v &&& 0xFFFFFFFE = v := by
  apply BitVec.eq_of_getLsbD_eq
  intro n _
  obtain rfl | hn := Nat.eq_zero_or_pos n
  · rw [even_and_mask, h]
  · exact getLsbD_and_evenMask v hn

/-- The entry saves C, SM and IE in the backup bits and clears IE and C, whatever the event. -/
theorem eitEntry_saves (s : State) (e : EitEvent) :
    (s.eitEntry e).psw.bsm = s.psw.sm ∧ (s.eitEntry e).psw.bie = s.psw.ie ∧ (s.eitEntry e).psw.bc = s.psw.c ∧
      (s.eitEntry e).psw.ie = false ∧ (s.eitEntry e).psw.c = false := ⟨rfl, rfl, rfl, rfl, rfl⟩

/-- Only the external interrupt changes SM (R406, decision D3). -/
theorem eitEntry_sm {e : EitEvent} (he : e ≠ .ei) : (s.eitEntry e).psw.sm = s.psw.sm := by
  cases e with
  | ei => exact absurd rfl he
  | ae | fpe | trap => rfl

section EvenPc

variable (hpc : s.pc.getLsbD 0 = false)
include hpc

theorem pc_add_four_even : (s.pc + 4).getLsbD 0 = false := even_add_len (.inr rfl) hpc

theorem eitEntry_bpc_ae : (s.eitEntry .ae).bpc = s.pc := by
  have hsaved : EitEvent.bpcValue .ae s.pc = s.pc := BitVec.add_zero s.pc
  rw [eitEntry_bpc, hsaved, and_evenMask_of_even hpc]

theorem eitEntry_bpc_fpe : (s.eitEntry .fpe).bpc = s.pc + 4 := and_evenMask_of_even (pc_add_four_even hpc)

theorem eitEntry_bpc_trap (n : BitVec 4) : (s.eitEntry (.trap n)).bpc = s.pc + 4 := and_evenMask_of_even (pc_add_four_even hpc)

theorem eitEntry_bpc_ei : (s.eitEntry .ei).bpc = s.pc := and_evenMask_of_even hpc

end EvenPc

/-- Settles O34: the entry is one procedure, of which the saved address, the vector and SM depend on the event. -/
theorem exceptionEntrySavesAndEnters : Obligations.ExceptionEntrySavesAndEnters := by
  refine fun s hpc => ⟨fun e => ?_, eitEntry_bpc_ae hpc, rfl, eitEntry_bpc_fpe hpc, rfl, eitEntry_bpc_ei hpc, rfl, rfl⟩
  obtain ⟨hbsm, hbie, hbc, hie, hc⟩ := eitEntry_saves s e
  exact ⟨hbsm, hbie, hbc, hie, hc, eitEntry_sm, eitEntry_banks e, eitEntry_keeps e⟩

/-- Settles O32: TRAP is the entry of its event. -/
theorem trapSavesAndEntersItsVector : Obligations.TrapSavesAndEntersItsVector := by
  refine ⟨fun n => spelled16_of_encode rfl, fun s n hpc => ⟨s.eitEntry (.trap n), rfl, eitEntry_bpc_trap hpc n, ?_⟩⟩
  obtain ⟨hbsm, hbie, hbc, hie, hc⟩ := eitEntry_saves s (.trap n)
  refine ⟨hbsm, hbie, hbc, eitEntry_sm nofun, hie, hc, ?_, eitEntry_banks _, eitEntry_keeps _⟩
  rw [eitEntry_pc, EitEvent.vector, BitVec.ofNat_toNat]

/-! ### The external interrupt (60_exceptions.md R421, R422) -/

theorem interruptAccepted_iff :
    s.interruptAccepted = true ↔ s.extInt = true ∧ s.psw.ie = true ∧ s.pc.toNat % 4 = 0 := by
  rw [State.interruptAccepted, Bool.and_eq_true, Bool.and_eq_true, aligned4_iff, and_assoc]

theorem step_of_interrupt (hreset : s.resetReq = false) (hint : s.interruptAccepted = true) :
    step s = .next (s.eitEntry .ei).tick := by
  simp only [step, hreset, hint, Bool.false_eq_true, if_false, if_true]

/-- Settles O35: an accepted interrupt is entered (`step_of_interrupt`), otherwise the instruction runs (`step_of_instr`). -/
theorem anInterruptIsTakenAtAWordBoundaryOnly : Obligations.AnInterruptIsTakenAtAWordBoundaryOnly := by
  intro s hreset
  simp only [← interruptAccepted_iff]
  refine ⟨fun hint => ?_, fun hint i hpc hb hd t ht => ?_⟩
  · obtain ⟨-, hie, haligned⟩ := interruptAccepted_iff.mp hint
    have hpc : s.pc.getLsbD 0 = false := even_of_aligned4 (aligned4_of_mod haligned)
    exact ⟨_, step_of_interrupt hreset hint, rfl, eitEntry_bpc_ei hpc, rfl, hie, rfl, rfl, rfl, rfl, eitEntry_banks .ei,
      eitEntry_keeps .ei⟩
  · rw [step_of_instr hreset (by simpa using hint) hpc hb hd, ht]
    rfl

/-! ### Reset (60_exceptions.md R430, 70_reset_and_hazards.md R450) -/

theorem step_of_reset (h : s.resetReq = true) : step s = .next s.takeReset.tick := by
  simp only [step, h, if_true]

/-- MVFC reads of the FPSR after reset that DN alone is 1 (10_state.md R35). -/
theorem fpsrImage_reset : Fpsr.reset.image = 0x100 := by decide

/-- Settles O36: a raised reset is taken before anything else (`step_of_reset`). -/
theorem resetGivesTheValuesTheSpecStates : Obligations.ResetGivesTheValuesTheSpecStates := by
  refine ⟨fun s h => ⟨_, step_of_reset h, rfl, rfl, rfl, rfl, ?_, rfl, rfl, rfl, rfl, BitVec.getLsbD_zero, rfl, rfl⟩,
    rfl, rfl, rfl, ?_, rfl, rfl, rfl⟩
  all_goals exact congrArg some fpsrImage_reset

end Sys2Proof.Machine
end

section
/-! PROOFS. Multiply and accumulate (46_dsp.md R296 to R299): the products of the multiplications, added to the accumulator. -/

namespace Sys2Proof.Machine

/-- Settles O38: each of the instructions ends in `State.writeAcc` with the accumulator plus the product of its operands. -/
theorem multiplyAccumulatesAddToTheAccumulator : Obligations.MultiplyAccumulatesAddToTheAccumulator := by
  refine ⟨fun a b => ⟨spelled16_of_encode rfl, spelled16_of_encode rfl, spelled16_of_encode rfl, spelled16_of_encode rfl⟩, ?_⟩
  intro s a b x y xh xl yh yl hx hy hxh hxl hyh hyl i v hi
  obtain rfl := eq_hi16 (hx.symm.trans hxh)
  obtain rfl := eq_hi16 (hy.symm.trans hyh)
  subst hx hy hxl hyl
  obtain ⟨rfl, rfl⟩ | ⟨rfl, rfl⟩ | ⟨rfl, rfl⟩ | ⟨rfl, rfl⟩ := hi
  all_goals exact completes_of_writeAcc rfl

end Sys2Proof.Machine
end

section
/-! PROOFS. The two endings of an FPU operation (47_float_arith.md R327), and where an overflow begins (R329).

The rounded magnitude is past the largest number where the exact one is at least 2^128, or where it lies in the last unit below
2^128 and is rounded up. Which of the magnitudes there are rounded up is the rounding mode's choice. -/

namespace Sys2Proof.Machine

variable {rnd : RoundMode} {neg : Bool} {num den : Nat} {f : Fpsr}

/-! ### The two endings (R327) -/

/-- An operation that does not trigger writes its destination and the FPSR, nothing else. -/
theorem completes_of_fpEnd {s : State} {i : Instr} {d : Reg} {o : FpOutcome} (h : exec i s = s.fpEnd d o)
    (ht : s.fpsr.triggers o.causes = false) :
    Completes i s fun t => t.reg d = o.value ∧ t.fpsr = fpsrAfter s.fpsr o.causes ∧ RegsKeptBut [d] s t ∧
      KeepsBut [.fpsr] s t ∧ t.pc = s.pc + 4 := by
  obtain ⟨t, hexec, hreg, hregs, hkeeps, hpc⟩ := writesReg_of_fpEnd h ht
  obtain ⟨u, hu, hfpsr⟩ := fpsr_of_fpEnd h ht
  rw [hexec] at hu
  cases hu
  exact ⟨t, hexec, hreg, hfpsr, hregs, hkeeps, hpc⟩

/-- Settles O44: the cause bits record what was detected, so `fpEnd_cases` reads off them which ending it was. -/
theorem fpuOperationsEndInFpeOrWriteTheirResult : Obligations.FpuOperationsEndInFpeOrWriteTheirResult := by
  intro s t d a b i hi ht
  obtain ⟨o, h, -⟩ := exec_fpuOperation (s := s) hi
  have hcause : t.fpsr.cause = o.causes := fpEnd_cause (h.symm.trans ht)
  rw [hcause]
  refine ⟨fun htrig => ?_, fun htrig => ?_⟩
  · rw [fpe_of_fpEnd h htrig] at ht
    cases ht
    rfl
  · obtain ⟨u, hu, -, hrest⟩ := completes_of_fpEnd h htrig
    rw [ht] at hu
    cases hu
    exact hrest

/-! ### Overflow (R329) -/

/-- A finish of a magnitude of at least 2^-126 detects OVF where its rounded magnitude is past the largest number. -/
theorem fpFinish_co_iff (h : den ≤ num * 2 ^ 126) :
    (fpFinish f rnd neg num den).causes.co = true ↔ 0x7F800000 ≤ roundMag rnd neg num den := by
  by_cases ho : 0x7F800000 ≤ roundMag rnd neg num den
  · rw [fpFinish_of_overflow f rnd neg (Nat.not_lt.mpr h) ho]
    cases f.eo <;> simp [ho, ovf, FpCauses.union]
  · rw [fpFinish_of_normal f rnd neg (Nat.not_lt.mpr h) ho]
    split <;> simp [ho, ixct]

section Overflow

variable (hden : 0 < den) (h : den ≤ num * 2 ^ 126)
include hden h

/-- The exponent of a magnitude is at least `k` from `2 ^ k` units of 2^-149 on. -/
theorem le_fpLog_iff {k : Nat} : k ≤ fpLog num den ↔ den * 2 ^ k ≤ num * 2 ^ 149 := by
  have hne : num * 2 ^ 149 / den ≠ 0 := (Nat.lt_of_lt_of_le (by decide) (exact_ge hden h)).ne'
  rw [fpLog, Nat.le_log2 hne, Nat.le_div_iff_mul_le hden, Nat.mul_comm]

/-- A magnitude in the last unit below 2^128: its significand is the largest, and the rest is the remainder. -/
theorem fpRem_of_last_unit (hlow : den * (2 ^ 128 - 2 ^ 104) ≤ num) (hhigh : num < den * 2 ^ 128) :
    fpLog num den = 276 ∧ fpQuot num den = 2 ^ 24 - 1 ∧
      num * 2 ^ 172 = den * 2 ^ 276 * (2 ^ 24 - 1) + fpRem num den := by
  have hlog : fpLog num den = 276 := by
    have h276 : 276 ≤ fpLog num den := (le_fpLog_iff hden h).mpr (by omega)
    have h277 : ¬ 277 ≤ fpLog num den := fun hle => by
      have := (le_fpLog_iff hden h).mp hle
      omega
    omega
  have hscale : fpScale num den = den * 2 ^ 276 := by rw [fpScale, hlog]
  have hquot : fpQuot num den = 2 ^ 24 - 1 := by
    rw [fpQuot, hscale, Nat.div_eq_iff (by omega)]
    omega
  refine ⟨hlog, hquot, ?_⟩
  rw [← hquot, ← hscale]
  exact (Nat.div_add_mod _ _).symm

/-- A magnitude below the last unit has a smaller exponent, or a smaller significand. -/
theorem roundMag_lt_of_below_last_unit (hlt : num < den * (2 ^ 128 - 2 ^ 104)) : roundMag rnd neg num den < 0x7F800000 := by
  have hsig := (significand_range (rnd := rnd) (neg := neg) hden h).2
  have h277 : ¬ 277 ≤ fpLog num den := fun hle => by
    have := (le_fpLog_iff hden h).mp hle
    omega
  rw [roundMag_eq]
  by_cases h276 : fpLog num den = 276
  · have hquot : fpQuot num den < 2 ^ 24 - 1 := by
      rw [fpQuot, fpScale, h276, Nat.div_lt_iff_lt_mul (by omega)]
      omega
    have hup := Bool.toNat_le (upOf rnd neg num den)
    omega
  · omega

/-- The rounded magnitude is past the largest number from 2^128 on, or in the last unit below it where that is rounded up. -/
theorem overflows_iff :
    0x7F800000 ≤ roundMag rnd neg num den ↔
      den * 2 ^ 128 ≤ num ∨ (den * (2 ^ 128 - 2 ^ 104) ≤ num ∧ upOf rnd neg num den = true) := by
  by_cases hhigh : num < den * 2 ^ 128
  · by_cases hlow : den * (2 ^ 128 - 2 ^ 104) ≤ num
    · obtain ⟨hlog, hquot, -⟩ := fpRem_of_last_unit hden h hlow hhigh
      rw [roundMag_eq, hlog, hquot]
      cases upOf rnd neg num den
      · simpa using hhigh
      · simpa using .inr hlow
    · have hlt := roundMag_lt_of_below_last_unit (rnd := rnd) (neg := neg) hden h (Nat.not_le.mp hlow)
      omega
  · have hlog : 277 ≤ fpLog num den := (le_fpLog_iff hden h).mpr (by omega)
    have hsig := (significand_range (rnd := rnd) (neg := neg) hden h).1
    rw [roundMag_eq]
    omega

/-- To nearest the magnitudes from half of the last unit on overflow: the tie goes away from the odd significand. -/
theorem overflows_nearest_iff :
    0x7F800000 ≤ roundMag .nearest neg num den ↔ den * (2 ^ 128 - 2 ^ 103) ≤ num := by
  rw [overflows_iff hden h, upOf]
  by_cases hrange : den * (2 ^ 128 - 2 ^ 104) ≤ num ∧ num < den * 2 ^ 128
  · obtain ⟨hlog, hquot, hrem⟩ := fpRem_of_last_unit hden h hrange.1 hrange.2
    rw [roundsUp_nearest_iff, fpScale, hlog, hquot]
    omega
  · omega

/-- Away from zero every magnitude above the largest number overflows. -/
theorem overflows_away_iff (haway : rnd = .plusInf ∧ neg = false ∨ rnd = .minusInf ∧ neg = true) :
    0x7F800000 ≤ roundMag rnd neg num den ↔ den * (2 ^ 128 - 2 ^ 104) < num := by
  have hup : upOf rnd neg num den = true ↔ fpRem num den ≠ 0 := by
    obtain ⟨rfl, rfl⟩ | ⟨rfl, rfl⟩ := haway
    · simp [upOf, roundsUp_plusInf_iff]
    · simp [upOf, roundsUp_minusInf_iff]
  rw [overflows_iff hden h, hup]
  by_cases hrange : den * (2 ^ 128 - 2 ^ 104) ≤ num ∧ num < den * 2 ^ 128
  · obtain ⟨-, -, hrem⟩ := fpRem_of_last_unit hden h hrange.1 hrange.2
    omega
  · omega

/-- Toward zero the magnitudes from 2^128 on overflow. -/
theorem overflows_toward_zero_iff (hnearest : rnd ≠ .nearest)
    (haway : ¬ (rnd = .plusInf ∧ neg = false ∨ rnd = .minusInf ∧ neg = true)) :
    0x7F800000 ≤ roundMag rnd neg num den ↔ den * 2 ^ 128 ≤ num := by
  have hup : upOf rnd neg num den = false := by
    cases rnd with
    | nearest => exact absurd rfl hnearest
    | zero => rfl
    | plusInf =>
      cases neg
      · exact absurd (.inl ⟨rfl, rfl⟩) haway
      · rfl
    | minusInf =>
      cases neg
      · rfl
      · exact absurd (.inr ⟨rfl, rfl⟩) haway
  rw [overflows_iff hden h, hup]
  simp

end Overflow

/-- What an overflow detects, with EO = 1 and with EO = 0. -/
theorem overflow_causes (f : Fpsr) :
    (if f.eo then ovf else ovf.union ixct) = { FpCauses.none with co := true, cx := !f.eo } := by
  cases f.eo <;> rfl

/-- What is delivered by rounding mode and sign (R329). -/
theorem overflowValue_eq (rm : RoundMode) (neg : Bool) :
    (rm = .nearest → overflowValue rm neg = if neg then 0xFF800000 else 0x7F800000) ∧
    (rm = .zero → overflowValue rm neg = if neg then 0xFF7FFFFF else 0x7F7FFFFF) ∧
    (rm = .plusInf → overflowValue rm neg = if neg then 0xFF7FFFFF else 0x7F800000) ∧
    (rm = .minusInf → overflowValue rm neg = if neg then 0xFF800000 else 0x7F7FFFFF) := by
  refine ⟨?_, ?_, ?_, ?_⟩
  all_goals
    rintro rfl
    cases neg <;> rfl

/-- Settles O46: where an overflow begins is `overflows_iff` for each rounding mode; what it delivers is `overflowValue`. -/
theorem overflowBeginsAboveTheLargestNumber : Obligations.OverflowBeginsAboveTheLargestNumber := by
  intro f rnd neg num den hden h
  dsimp only
  rw [fpFinish_co_iff h]
  refine ⟨?_, overflows_away_iff hden h, overflows_toward_zero_iff hden h, fun hov => ?_⟩
  · rintro rfl
    exact overflows_nearest_iff hden h
  · rw [fpFinish_of_overflow f rnd neg (Nat.not_lt.mpr h) hov]
    exact ⟨overflow_causes f, overflowValue_eq f.rm neg⟩

end Sys2Proof.Machine
end

section
/-! PROOFS. FTOI and FTOS, FCMP and FCMPE (48_float_convert_compare.md R372 to R377).

A conversion ends as R327 says with what `toInteger` answers, a compare with what `fpCompare` answers. So there is one lemma for
each class of operands, and for each pattern the bits of it that are not free. -/

namespace Sys2Proof.Machine

variable {s : State} {i : Instr} {d r ra rb : Reg} {f : Fpsr} {x a b : Word}

/-! ### Truncation (R372, R373) -/

/-- The integer next to a value on the side of 0 is the truncated value. -/
theorem eq_fpTrunc {q : Int}
    (hnonneg : 0 ≤ fpVal x → 0 ≤ q ∧ q * 2 ^ 149 ≤ fpVal x ∧ fpVal x < (q + 1) * 2 ^ 149)
    (hnonpos : fpVal x ≤ 0 → q ≤ 0 ∧ fpVal x ≤ q * 2 ^ 149 ∧ (q - 1) * 2 ^ 149 < fpVal x) : q = fpTrunc x := by
  obtain hx | hx := Int.le_total 0 (fpVal x)
  · rw [fpTrunc, Int.tdiv_eq_ediv_of_nonneg hx]
    omega
  · have hneg : (fpVal x).tdiv (2 ^ 149) = -((-fpVal x) / 2 ^ 149) := by
      rw [← Int.tdiv_eq_ediv_of_nonneg (by omega), Int.neg_tdiv, Int.neg_neg]
    rw [fpTrunc, hneg]
    omega

/-- A denormalized number is less than 1. -/
theorem fpTrunc_of_denormal (h : isDenormal x = true) : fpTrunc x = 0 := by
  have hmag : fpMag x < 2 ^ 149 := by
    rw [fpMag, if_pos (fpExp_of_denormal h), fpFrac_eq]
    omega
  rw [fpTrunc, fpVal]
  split
  · rw [Int.neg_tdiv, Int.tdiv_eq_zero_of_lt (by omega) (by omega), Int.neg_zero]
  · exact Int.tdiv_eq_zero_of_lt (by omega) (by omega)

section ToInteger

variable {lo hi : Int} {low high : Word}

theorem toInteger_of_denormal (h : isDenormal x = true) :
    toInteger f lo hi low high x =
      if f.dn then { causes := FpCauses.none, value := 0 } else { causes := uipl, value := signedZero false } := by
  have hinf : isInfinite x = false := isInfinite_of_exp (by rw [fpExp_of_denormal h]; decide)
  simp only [toInteger, isNan_of_denormal h, hinf, h, Bool.or_self, Bool.false_eq_true, if_false, if_true]

/-- A NaN, an infinity and what does not fit are invalid, and deliver the bound of their sign. -/
theorem toInteger_of_invalid (h : isNan x = true ∨ isInfinite x = true ∨ fpTrunc x < lo ∨ hi < fpTrunc x) (hlo : lo ≤ 0)
    (hhi : 0 ≤ hi) : toInteger f lo hi low high x = { causes := ivld, value := if fpSign x then low else high } := by
  by_cases hspecial : isNan x = true ∨ isInfinite x = true
  · simp [toInteger, hspecial]
  · have hrange : fpTrunc x < lo ∨ hi < fpTrunc x := (or_assoc.mpr h).resolve_left hspecial
    have hden : isDenormal x = false := by
      rw [Bool.eq_false_iff]
      intro hden
      rw [fpTrunc_of_denormal hden] at hrange
      omega
    rw [not_or, Bool.not_eq_true, Bool.not_eq_true] at hspecial
    simp [toInteger, hspecial, hden, hrange]

/-- What fits is converted exactly or inexactly. -/
theorem toInteger_of_fits (hnan : isNan x = false) (hinf : isInfinite x = false) (hden : isDenormal x = false)
    (hlo : lo ≤ fpTrunc x) (hhi : fpTrunc x ≤ hi) :
    toInteger f lo hi low high x =
      { causes := if fpTrunc x * 2 ^ 149 = fpVal x then FpCauses.none else ixct, value := BitVec.ofInt 32 (fpTrunc x) } := by
  simp [toInteger, hnan, hinf, hden, Int.not_lt.mpr hlo, Int.not_lt.mpr hhi]

end ToInteger

/-- FTOI and FTOS convert to the signed integers of `n + 1` bits. -/
theorem exec_toInteger {n : Nat} (hi : i = .ftoi d r ∧ n = 31 ∨ i = .ftos d r ∧ n = 15) :
    exec i s = s.fpEnd d (toInteger s.fpsr (-2 ^ n) (2 ^ n - 1) (BitVec.ofInt 32 (-2 ^ n)) (BitVec.ofInt 32 (2 ^ n - 1))
      (s.reg r)) := by
  obtain ⟨rfl, rfl⟩ | ⟨rfl, rfl⟩ := hi
  · rfl
  · rfl

/-- Settles O58: both conversions end with `toInteger`, whose cases are those of the rules. -/
theorem numbersConvertToTruncatedIntegers : Obligations.NumbersConvertToTruncatedIntegers := by
  refine ⟨fun d r => ⟨spelled32_of_encode rfl, spelled32_of_encode rfl⟩, ?_⟩
  rintro s d r i n x rfl hi q hnonneg hnonpos
  obtain rfl := eq_fpTrunc hnonneg hnonpos
  have hexec := exec_toInteger (s := s) hi
  have hpos : (0 : Int) < 2 ^ n := by positivity
  refine ⟨fun hinvalid => ?_, fun hden hdn => ?_, fun hden hdn => ?_, fun hnan hinf hden hlow hhigh => ?_⟩
  · rw [toInteger_of_invalid (by rwa [Int.sub_one_lt_iff]) (by omega) (by omega), ← apply_ite (BitVec.ofInt 32)] at hexec
    exact ends_of_invalid hexec
  · rw [toInteger_of_denormal hden, if_pos hdn] at hexec
    exact delivers_of_fpEnd hexec
  · rw [toInteger_of_denormal hden, hdn] at hexec
    exact (ends_of_fpEnd hexec).2 (triggers_uipl _)
  · rw [toInteger_of_fits hnan hinf hden hlow (by omega)] at hexec
    refine ⟨fun hexact => ?_, fun hinexact hex => ?_, fun hinexact hex => ?_⟩
    · rw [if_pos hexact] at hexec
      exact delivers_of_fpEnd hexec
    · rw [if_neg hinexact] at hexec
      exact (ends_of_fpEnd hexec).1 ((triggers_ixct _).trans hex)
    · rw [if_neg hinexact] at hexec
      exact (ends_of_fpEnd hexec).2 ((triggers_ixct _).trans hex)

/-! ### The patterns of a compare (R377) -/

/-- "Less" has bit 31 set. -/
theorem getLsbD_patternLess (n : Nat) (a b : Word) : (patternLess n a b).getLsbD 31 = true := by
  rw [patternLess, BitVec.getLsbD_append]
  rfl

/-- "Greater" has bit 31 clear, is not 0 and not "comparison invalid". -/
theorem patternGreater_bits (n : Nat) (a b : Word) :
    (patternGreater n a b).getLsbD 31 = false ∧ patternGreater n a b ≠ 0 ∧
      (patternGreater n a b).extractLsb' 22 9 ≠ 0x1FF := by
  obtain ⟨hlow, hhigh⟩ := patternGreater_range n a b
  generalize patternGreater n a b = w at hlow hhigh
  refine ⟨?_, ?_, ?_⟩
  · exact Nat.testBit_lt_two_pow (by omega)
  · rintro rfl
    exact absurd hlow (by decide)
  · intro h
    have hfield : w.toNat / 2 ^ 22 % 2 ^ 9 = 0x1FF := by
      rw [← Nat.shiftRight_eq_div_pow, ← BitVec.extractLsb'_toNat, h]
      rfl
    omega

/-- "Comparison invalid" has bit 31 clear and bits 30 to 22 set. -/
theorem patternUnordered_bits (n : Nat) (a b : Word) :
    (patternUnordered n a b).getLsbD 31 = false ∧ (patternUnordered n a b).extractLsb' 22 9 = 0x1FF := by
  constructor
  · rw [patternUnordered, BitVec.getLsbD_append]
    rfl
  · exact (field_of_upper (0#1 ++ 0x1FF#9) (Config.fcmpUnordered n a b) 0 9).trans rfl

/-- The pattern of two values by their order. -/
theorem patternOf_fpOrder (n : Nat) (a b x y : Word) :
    (fpVal x = fpVal y → patternOf n a b (fpOrder x y) = 0) ∧
    (fpVal x < fpVal y → patternOf n a b (fpOrder x y) = patternLess n a b) ∧
    (fpVal y < fpVal x → patternOf n a b (fpOrder x y) = patternGreater n a b) := by
  refine ⟨fun h => ?_, fun h => ?_, fun h => ?_⟩
  · rw [fpOrder, compare_eq_iff_eq.mpr h, patternOf]
  · rw [fpOrder, compare_lt_iff_lt.mpr h, patternOf]
  · rw [fpOrder, compare_gt_iff_gt.mpr h, patternOf]

/-! ### Compare (R375, R376) -/

variable {n : Nat} {invalid : Word → Bool}

/-- Operands that are no NaN and, with DN = 0, not denormalized. -/
theorem fpCompare_of_admitted (hinvalid : invalid a = false ∧ invalid b = false) (ha : isNan a = false) (hb : isNan b = false)
    (hd : f.dn = false → isDenormal a = false ∧ isDenormal b = false) :
    fpCompare f n invalid a b =
      { causes := FpCauses.none, value := patternOf n a b (fpOrder (flush a) (flush b)) } := by
  have hden : ((isDenormal a || isDenormal b) && !f.dn) = false := by
    cases hdn : f.dn
    · simp [hd hdn]
    · simp
  simp [fpCompare, hinvalid, ha, hb, hden]

theorem fpCompare_of_invalid (h : invalid a = true ∨ invalid b = true) :
    fpCompare f n invalid a b = { causes := ivld, value := patternUnordered n a b } := by
  simp [fpCompare, h]

/-- A NaN that the compare does not refuse. -/
theorem fpCompare_of_quiet (hinvalid : invalid a = false ∧ invalid b = false) (h : isNan a = true ∨ isNan b = true) :
    fpCompare f n invalid a b = { causes := FpCauses.none, value := patternUnordered n a b } := by
  simp [fpCompare, hinvalid, h]

/-- FCMP and FCMPE with the NaNs that they refuse. -/
theorem exec_compare (hi : i ∈ [Instr.fcmp d ra rb, .fcmpe d ra rb]) :
    ∃ invalid : Word → Bool, exec i s = s.fpEnd d (fpCompare s.fpsr s.drawIndex invalid (s.reg ra) (s.reg rb)) ∧
      ∀ x : Word, isNan x = false → invalid x = false := by
  simp only [List.mem_cons, List.not_mem_nil, or_false] at hi
  obtain rfl | rfl := hi
  · exact ⟨isSnan, rfl, fun x => isSnan_of_not_nan⟩
  · exact ⟨isNan, rfl, fun x hx => hx⟩

/-- Settles O59: on operands that are no NaN both compares deliver the pattern of the order of the flushed operands. -/
theorem comparesDeliverTheirPattern : Obligations.ComparesDeliverTheirPattern := by
  refine ⟨fun d a b => ⟨spelled32_of_encode rfl, spelled32_of_encode rfl⟩, ?_⟩
  rintro s d ra rb a b rfl rfl ha hb hd i hi
  rw [isNan_flush] at ha hb
  obtain ⟨invalid, hexec, hinvalid⟩ := exec_compare (s := s) hi
  rw [fpCompare_of_admitted ⟨hinvalid _ ha, hinvalid _ hb⟩ ha hb hd] at hexec
  obtain ⟨t, ht, hreg, hfpsr, hregs, hkeeps, hpc⟩ := completes_of_fpEnd hexec (triggers_none _)
  obtain ⟨heq, hlt, hgt⟩ := patternOf_fpOrder s.drawIndex (s.reg ra) (s.reg rb) (flush (s.reg ra)) (flush (s.reg rb))
  refine ⟨t, ht, hfpsr, hregs, hkeeps, hpc, ?_⟩
  rw [hreg]
  refine ⟨heq, fun h => ?_, fun h => ?_⟩
  · rw [hlt h]
    exact getLsbD_patternLess ..
  · rw [hgt h]
    exact patternGreater_bits ..

/-- A NaN makes the comparison invalid, and an invalid operation where the compare refuses it. -/
theorem exec_compare_of_nan {e : FpCauses}
    (h : (i = .fcmp d ra rb ∧ (isSnan (s.reg ra) = true ∨ isSnan (s.reg rb) = true) ∧ e = ivld) ∨
      (i = .fcmp d ra rb ∧ isSnan (s.reg ra) = false ∧ isSnan (s.reg rb) = false ∧
        (isQnan (s.reg ra) = true ∨ isQnan (s.reg rb) = true) ∧ e = FpCauses.none) ∨
      (i = .fcmpe d ra rb ∧ (isNan (s.reg ra) = true ∨ isNan (s.reg rb) = true) ∧ e = ivld)) :
    exec i s = s.fpEnd d { causes := e, value := patternUnordered s.drawIndex (s.reg ra) (s.reg rb) } := by
  obtain ⟨rfl, hnan, rfl⟩ | ⟨rfl, ha, hb, hnan, rfl⟩ | ⟨rfl, hnan, rfl⟩ := h
  · exact congrArg (s.fpEnd d) (fpCompare_of_invalid hnan)
  · exact congrArg (s.fpEnd d) (fpCompare_of_quiet ⟨ha, hb⟩ (hnan.imp isNan_of_qnan isNan_of_qnan))
  · exact congrArg (s.fpEnd d) (fpCompare_of_invalid hnan)

/-- Settles O60: whatever NaN it is, the pattern is "comparison invalid", and EV decides how an invalid operation ends. -/
theorem comparesOfANanAreInvalid : Obligations.ComparesOfANanAreInvalid := by
  rintro s d ra rb a b rfl rfl i e h
  have hexec := exec_compare_of_nan (s := s) h
  refine ⟨fun hmasked => ?_, ?_⟩
  · have htrig : s.fpsr.triggers e = false := by
      obtain ⟨-, -, rfl⟩ | ⟨-, -, -, -, rfl⟩ | ⟨-, -, rfl⟩ := h
      · simpa using hmasked
      · exact triggers_none _
      · simpa using hmasked
    obtain ⟨t, ht, hreg, hrest⟩ := completes_of_fpEnd hexec htrig
    obtain ⟨hbit, hbits⟩ := patternUnordered_bits s.drawIndex (s.reg ra) (s.reg rb)
    exact ⟨t, ht, by rw [hreg, hbit], by rw [hreg, hbits], hrest⟩
  · rintro rfl hev
    exact (ends_of_invalid hexec).2 hev

end Sys2Proof.Machine
end
